-- ==== Sys2Proof/Word.lean ====
section
/-!
DEFINITION. The widths of the machine: bit vectors with bit 0 least significant (00_scope.md R7).
-/

namespace Sys2Proof

/-- A byte: an element of GF(2^8), an S-box entry, one cell of host memory. -/
abbrev Byte := BitVec 8

/-- A word, 32 bits (00_scope.md, glossary). -/
abbrev Word := BitVec 32

/-- A doubleword, 64 bits (00_scope.md, glossary). -/
abbrev Dword := BitVec 64

/-- The container of an XLEN-bit value: at XLEN 32 the value is bits 31:0 and bits 63:32 are zero
(notes/assumptions/4.md). -/
abbrev XWord := BitVec 64

/-- A 5-bit register number, the fields rd, rs1 and rs2 (30_encoding.md R27). -/
abbrev Reg := BitVec 5

end Sys2Proof
end

