-- ==== Sys2Proof/Syntax.lean ====
section
/-!
DEFINITION. The 31 instructions of spec/opcode_table.json (30_encoding.md R32), one constructor a row,
with the operand fields of the row's format (30_encoding.md R27 to R30) at their exact widths.
-/

namespace Sys2Proof

/-- The decoded operation, port `op` of the functional unit: one of the 31 mnemonics (10_state.md R17). -/
inductive Op where
  | clmul | clmulh
  | aes32esi | aes32esmi | aes32dsi | aes32dsmi
  | aes64es | aes64esm | aes64ds | aes64dsm | aes64im | aes64ks1i | aes64ks2
  | sha256sig0 | sha256sig1 | sha256sum0 | sha256sum1
  | sha512sig0 | sha512sig1 | sha512sum0 | sha512sum1
  | sha512sig0h | sha512sig0l | sha512sig1h | sha512sig1l | sha512sum0r | sha512sum1r
  | sm3p0 | sm3p1
  | sm4ed | sm4ks
  deriving DecidableEq, Repr

/-- An instruction with its fields in the order of the assembler syntax (30_encoding.md R35):
rd, rs1, rs2, then the selector. -/
inductive Instr where
  -- Carry-less multiply (41_clmul.md)
  | clmul (rd rs1 rs2 : Reg)
  | clmulh (rd rs1 rs2 : Reg)
  -- AES round function, 32-bit sliced form (42_aes32.md)
  | aes32esi (rd rs1 rs2 : Reg) (bs : BitVec 2)
  | aes32esmi (rd rs1 rs2 : Reg) (bs : BitVec 2)
  | aes32dsi (rd rs1 rs2 : Reg) (bs : BitVec 2)
  | aes32dsmi (rd rs1 rs2 : Reg) (bs : BitVec 2)
  -- AES round function, 64-bit form, and key schedule (43_aes64.md)
  | aes64es (rd rs1 rs2 : Reg)
  | aes64esm (rd rs1 rs2 : Reg)
  | aes64ds (rd rs1 rs2 : Reg)
  | aes64dsm (rd rs1 rs2 : Reg)
  | aes64im (rd rs1 : Reg)
  | aes64ks1i (rd rs1 : Reg) (rnum : BitVec 4)
  | aes64ks2 (rd rs1 rs2 : Reg)
  -- SHA-256 (44_sha256.md)
  | sha256sig0 (rd rs1 : Reg)
  | sha256sig1 (rd rs1 : Reg)
  | sha256sum0 (rd rs1 : Reg)
  | sha256sum1 (rd rs1 : Reg)
  -- SHA-512, 64-bit forms, then 32-bit split forms (45_sha512.md)
  | sha512sig0 (rd rs1 : Reg)
  | sha512sig1 (rd rs1 : Reg)
  | sha512sum0 (rd rs1 : Reg)
  | sha512sum1 (rd rs1 : Reg)
  | sha512sig0h (rd rs1 rs2 : Reg)
  | sha512sig0l (rd rs1 rs2 : Reg)
  | sha512sig1h (rd rs1 rs2 : Reg)
  | sha512sig1l (rd rs1 rs2 : Reg)
  | sha512sum0r (rd rs1 rs2 : Reg)
  | sha512sum1r (rd rs1 rs2 : Reg)
  -- SM3 (46_sm3.md)
  | sm3p0 (rd rs1 : Reg)
  | sm3p1 (rd rs1 : Reg)
  -- SM4 (47_sm4.md)
  | sm4ed (rd rs1 rs2 : Reg) (bs : BitVec 2)
  | sm4ks (rd rs1 rs2 : Reg) (bs : BitVec 2)
  deriving DecidableEq, Repr

end Sys2Proof
end

