-- ==== Sys2Proof/Config.lean ====
section
/-!
DEFINITION. The open parameters of the hardware (92_eei_decisions.md, "Parameters left open").
XLEN, HOST_RESET_PC, HOST_TVAL_ILLEGAL_BITS, HOST_MODES and HOST_MTVEC are the record `HostParams`,
an argument of `Machine.State.resetWith`; BLOCK_LATENCY and DATA_INDEPENDENT_TIMING, which no rule
reads, are constants without a body.
-/

namespace Sys2Proof

/-- XLEN, the width of the host's integer registers, fixed for one instance (00_scope.md R4). -/
inductive Xlen where
  | rv32
  | rv64
  deriving DecidableEq, Repr

/-- The privilege modes of a RISC-V host (60_exceptions.md R87). -/
inductive Mode where
  | m
  | s
  | u
  deriving DecidableEq, Repr

/-- HOST_MODES, the privilege modes the host has besides M (60_exceptions.md R85). -/
structure HostModes where
  hasS : Bool
  hasU : Bool
  deriving DecidableEq, Repr

/-- The mode is one the host has; every host of the spec has M (70_reset_and_hazards.md R90). -/
def HostModes.has (h : HostModes) : Mode → Bool
  | .m => true
  | .s => h.hasS
  | .u => h.hasU

/-- A trap-vector register: its BASE address and whether it is in the vectored mode
(60_exceptions.md R85; only these two parts, notes/assumptions/7.md). -/
structure Tvec where
  base : XWord
  vectored : Bool
  deriving DecidableEq, Repr

/-- The parameters the host fixes for one instance (92_eei_decisions.md D2, D8, D23). -/
structure HostParams where
  /-- XLEN -/
  xlen : Xlen
  /-- HOST_RESET_PC -/
  resetPc : XWord
  /-- HOST_TVAL_ILLEGAL_BITS: the trap value of IllegalInstruction is the word (true) or 0 (false). -/
  tvalIllegalBits : Bool
  /-- HOST_MODES -/
  modes : HostModes
  /-- HOST_MTVEC -/
  mtvec : Tvec
  deriving DecidableEq, Repr

/-- The instance `Machine.State.reset` shows. DESIGN CHOICE (notes/assumptions/2.md): the spec leaves
every one of these open. -/
def defaultParams : HostParams where
  xlen := .rv64
  resetPc := 0x1000
  tvalIllegalBits := true
  modes := { hasS := true, hasU := true }
  mtvec := { base := 0, vectored := false }

/-- One less than BLOCK_LATENCY, so that the latency is positive by construction. No body: the spec
gives no value (70_reset_and_hazards.md R93; notes/assumptions/15.md). -/
opaque Config.blockLatencyPred : Op → Nat

/-- BLOCK_LATENCY: host cycles from operands to result, per mnemonic, a positive integer
(70_reset_and_hazards.md R93). No rule reads it. -/
def Config.blockLatency (op : Op) : Nat := Config.blockLatencyPred op + 1

/-- DATA_INDEPENDENT_TIMING: the latency of every instruction is independent of its operand values
(70_reset_and_hazards.md R93). No rule reads it. -/
opaque Config.dataIndependentTiming : Bool

end Sys2Proof
end

