-- ==== Sys2Proof/Machine/Bits.lean ====
section
/-!
DEFINITION. The bit-field primitives of 00_scope.md section 4 and 20_memory.md R20: rotation, bytes, and
the width of XLEN-bit and 32-bit values in their 64-bit containers.
-/

namespace Sys2Proof.Machine

/-- ror_w: rotation right by any amount, reduced modulo the width (00_scope.md R9). -/
def ror {w : Nat} (x : BitVec w) (n : Nat) : BitVec w :=
  (x >>> (n % w)) ||| (x <<< ((w - n % w) % w))

/-- rol_w: rotation left by any amount, reduced modulo the width (00_scope.md R9). -/
def rol {w : Nat} (x : BitVec w) (n : Nat) : BitVec w := ror x ((w - n % w) % w)

/-- byte(v, i) = v[8*i+7 : 8*i], byte 0 least significant (20_memory.md R20). -/
def byteAt {w : Nat} (v : BitVec w) (i : Nat) : Byte := v.extractLsb' (8 * i) 8

/-- The value of width w whose byte i, for i < n, is f i. -/
def packBytes (w n : Nat) (f : Nat → Byte) : BitVec w :=
  match n with
  | 0 => 0
  | k + 1 => packBytes w k f ||| ((f k).setWidth w <<< (8 * k))

/-- The low 32 bits of an XLEN-bit value. -/
def lowWord (v : XWord) : Word := v.setWidth 32

/-- The high 32 bits of a 64-bit value, v[63:32]. -/
def highWord (v : Dword) : Word := v.extractLsb' 32 32

/-- A value cut to XLEN bits, in its container. -/
def truncX (x : Xlen) (v : XWord) : XWord :=
  match x with
  | .rv32 => (v.setWidth 32).setWidth 64
  | .rv64 => v

/-- A 32-bit result written to a register: itself at XLEN 32, sext_64 of it at XLEN 64
(00_scope.md R10). -/
def result32 (x : Xlen) (r : Word) : XWord :=
  match x with
  | .rv32 => r.setWidth 64
  | .rv64 => r.signExtend 64

end Sys2Proof.Machine
end

