-- ==== Sys2Proof/Machine/Gf.lean ====
section
/-!
DEFINITION. GF(2^8), the constant tables and the AES column and row functions (40_gf_sbox.md). The four
tables are the block's only contents: constants that no instruction writes (10_state.md R12, R13, R18;
notes/assumptions/14.md).
-/

namespace Sys2Proof.Machine

/-! ### The field -/

/-- xtime: the product with x modulo x^8 + x^4 + x^3 + x + 1 (40_gf_sbox.md R38). -/
def xtime (a : Byte) : Byte := (a <<< 1) ^^^ (if a.getLsbD 7 then 0x1B else 0x00)

/-- The loop of 40_gf_sbox.md R39 over the bits of b listed, with the running product t and the sum r. -/
def gfMulLoop (b : Byte) : List Nat → Byte → Byte → Byte
  | [], _, r => r
  | i :: is, t, r => gfMulLoop b is (xtime t) (if b.getLsbD i then r ^^^ t else r)

/-- gf_mul: the GF(2^8) multiplier (40_gf_sbox.md R39). -/
def gfMul (a b : Byte) : Byte := gfMulLoop b [0, 1, 2, 3, 4, 5, 6, 7] a 0x00

/-- The n-th power of a in GF(2^8). -/
def gfPow (a : Byte) : Nat → Byte
  | 0 => 0x01
  | n + 1 => gfMul a (gfPow a n)

/-- gf_inv: the inverse a^254, and 0 for 0 (40_gf_sbox.md R40). -/
def gfInv (a : Byte) : Byte := gfPow a 254

/-! ### The tables

Each row of the spec's tables is one 128-bit number, column x0 in its most significant byte, so that the
rows read as the spec prints them. -/

/-- AES_SBOX, rows 0x to Fx (40_gf_sbox.md R41). -/
def aesSboxTable : List (BitVec 128) := [
  0x637C777BF26B6FC53001672BFED7AB76,
  0xCA82C97DFA5947F0ADD4A2AF9CA472C0,
  0xB7FD9326363FF7CC34A5E5F171D83115,
  0x04C723C31896059A071280E2EB27B275,
  0x09832C1A1B6E5AA0523BD6B329E32F84,
  0x53D100ED20FCB15B6ACBBE394A4C58CF,
  0xD0EFAAFB434D338545F9027F503C9FA8,
  0x51A3408F929D38F5BCB6DA2110FFF3D2,
  0xCD0C13EC5F974417C4A77E3D645D1973,
  0x60814FDC222A908846EEB814DE5E0BDB,
  0xE0323A0A4906245CC2D3AC629195E479,
  0xE7C8376D8DD54EA96C56F4EA657AAE08,
  0xBA78252E1CA6B4C6E8DD741F4BBD8B8A,
  0x703EB5664803F60E613557B986C11D9E,
  0xE1F8981169D98E949B1E87E9CE5528DF,
  0x8CA1890DBFE6426841992D0FB054BB16]

/-- AES_INV_SBOX, rows 0x to Fx (40_gf_sbox.md R42). -/
def aesInvSboxTable : List (BitVec 128) := [
  0x52096AD53036A538BF40A39E81F3D7FB,
  0x7CE339829B2FFF87348E4344C4DEE9CB,
  0x547B9432A6C2233DEE4C950B42FAC34E,
  0x082EA16628D924B2765BA2496D8BD125,
  0x72F8F66486689816D4A45CCC5D65B692,
  0x6C704850FDEDB9DA5E154657A78D9D84,
  0x90D8AB008CBCD30AF7E45805B8B34506,
  0xD02C1E8FCA3F0F02C1AFBD0301138A6B,
  0x3A9111414F67DCEA97F2CFCEF0B4E673,
  0x96AC7422E7AD3585E2F937E81C75DF6E,
  0x47F11A711D29C5896FB7620EAA18BE1B,
  0xFC563E4BC6D279209ADBC0FE78CD5AF4,
  0x1FDDA8338807C731B11210592780EC5F,
  0x60517FA919B54A0D2DE57A9F93C99CEF,
  0xA0E03B4DAE2AF5B0C8EBBB3C83539961,
  0x172B047EBA77D626E169146355210C7D]

/-- SM4_SBOX, rows 0x to Fx (40_gf_sbox.md R43). -/
def sm4SboxTable : List (BitVec 128) := [
  0xD690E9FECCE13DB716B614C228FB2C05,
  0x2B679A762ABE04C3AA44132649860699,
  0x9C4250F491EF987A33540B43EDCFAC62,
  0xE4B31CA9C908E89580DF94FA758F3FA6,
  0x4707A7FCF37317BA83593C19E6854FA8,
  0x686B81B27164DA8BF8EB0F4B70569D35,
  0x1E240E5E6358D1A225227C3B01217887,
  0xD40046579FD327524C3602E7A0C4C89E,
  0xEABF8AD240C738B5A3F7F2CEF96115A1,
  0xE0AE5DA49B341A55AD933230F58CB1E3,
  0x1DF6E22E8266CA60C02923AB0D534E6F,
  0xD5DB3745DEFD8E2F03FF6A726D6C5B51,
  0x8D1BAF92BBDDBC7F11D95C411F105AD8,
  0x0AC13188A5CD7BBD2D74D012B8E5B4B0,
  0x8969974A0C96777E65B9F109C56EC684,
  0x18F07DEC3ADC4D2079EE5F3ED7CB3948]

/-- The entry of a table at row = high nibble, column = low nibble. -/
def tableLookup (table : List (BitVec 128)) (v : Byte) : Byte :=
  (table.getD (v.toNat / 16) 0).extractLsb' (8 * (15 - v.toNat % 16)) 8

/-- AES_SBOX (40_gf_sbox.md R41). -/
def aesSbox (v : Byte) : Byte := tableLookup aesSboxTable v

/-- AES_INV_SBOX (40_gf_sbox.md R42). -/
def aesInvSbox (v : Byte) : Byte := tableLookup aesInvSboxTable v

/-- SM4_SBOX (40_gf_sbox.md R43). -/
def sm4Sbox (v : Byte) : Byte := tableLookup sm4SboxTable v

/-- The eleven AES round constants, rnum 0x0 to 0xA (40_gf_sbox.md R48). -/
def aesRconTable : List Word := [
  0x00000001, 0x00000002, 0x00000004, 0x00000008, 0x00000010, 0x00000020,
  0x00000040, 0x00000080, 0x0000001B, 0x00000036, 0x00000000]

/-- AES_RCON(rnum), for rnum up to 0xA; the others are illegal and reach no lookup (40_gf_sbox.md R48). -/
def aesRcon (rnum : BitVec 4) : Word := aesRconTable.getD rnum.toNat 0

/-! ### Word substitution (40_gf_sbox.md R44) -/

/-- The byte table applied to each of the n bytes of a value. -/
def subBytes {w : Nat} (table : Byte → Byte) (n : Nat) (v : BitVec w) : BitVec w :=
  packBytes w n (fun i => table (byteAt v i))

/-- aes_subword. -/
def aesSubword (v : Word) : Word := subBytes aesSbox 4 v

/-- aes_inv_subword. -/
def aesInvSubword (v : Word) : Word := subBytes aesInvSbox 4 v

/-! ### Columns and rows -/

/-- aes_mixcolumn_byte_fwd (40_gf_sbox.md R45). -/
def aesMixcolumnByteFwd (s : Byte) : Word := gfMul s 0x03 ++ s ++ s ++ gfMul s 0x02

/-- aes_mixcolumn_byte_inv (40_gf_sbox.md R45). -/
def aesMixcolumnByteInv (s : Byte) : Word := gfMul s 0x0B ++ gfMul s 0x0D ++ gfMul s 0x09 ++ gfMul s 0x0E

/-- aes_mixcolumn_fwd: MixColumns of one column (40_gf_sbox.md R46). -/
def aesMixcolumnFwd (c : Word) : Word :=
  let a0 := byteAt c 0
  let a1 := byteAt c 1
  let a2 := byteAt c 2
  let a3 := byteAt c 3
  let o0 := gfMul 0x02 a0 ^^^ gfMul 0x03 a1 ^^^ a2 ^^^ a3
  let o1 := a0 ^^^ gfMul 0x02 a1 ^^^ gfMul 0x03 a2 ^^^ a3
  let o2 := a0 ^^^ a1 ^^^ gfMul 0x02 a2 ^^^ gfMul 0x03 a3
  let o3 := gfMul 0x03 a0 ^^^ a1 ^^^ a2 ^^^ gfMul 0x02 a3
  o3 ++ o2 ++ o1 ++ o0

/-- aes_mixcolumn_inv: InvMixColumns of one column (40_gf_sbox.md R46). -/
def aesMixcolumnInv (c : Word) : Word :=
  let a0 := byteAt c 0
  let a1 := byteAt c 1
  let a2 := byteAt c 2
  let a3 := byteAt c 3
  let o0 := gfMul 0x0E a0 ^^^ gfMul 0x0B a1 ^^^ gfMul 0x0D a2 ^^^ gfMul 0x09 a3
  let o1 := gfMul 0x09 a0 ^^^ gfMul 0x0E a1 ^^^ gfMul 0x0B a2 ^^^ gfMul 0x0D a3
  let o2 := gfMul 0x0D a0 ^^^ gfMul 0x09 a1 ^^^ gfMul 0x0E a2 ^^^ gfMul 0x0B a3
  let o3 := gfMul 0x0B a0 ^^^ gfMul 0x0D a1 ^^^ gfMul 0x09 a2 ^^^ gfMul 0x0E a3
  o3 ++ o2 ++ o1 ++ o0

/-- aes_shiftrows_fwd on the 128-bit state: byte r + 4c comes from byte r + 4((c + r) mod 4)
(40_gf_sbox.md R47; state layout 20_memory.md R21). -/
def aesShiftrowsFwd (s : BitVec 128) : BitVec 128 :=
  packBytes 128 16 (fun k => byteAt s (k % 4 + 4 * ((k / 4 + k % 4) % 4)))

/-- aes_shiftrows_inv on the 128-bit state: byte r + 4c comes from byte r + 4((c - r) mod 4)
(40_gf_sbox.md R47). -/
def aesShiftrowsInv (s : BitVec 128) : BitVec 128 :=
  packBytes 128 16 (fun k => byteAt s (k % 4 + 4 * ((k / 4 + 4 - k % 4) % 4)))

end Sys2Proof.Machine
end

