-- ==== Sys2Proof/WellFormed.lean ====
section
/-!
DEFINITION. Which instructions are legal, written from the lists of 60_exceptions.md R81 (the decoder's
own check, `legalAt` in Decode.lean, is written from the opcode map; Laws/Decode.lean proves the two
equal). Register numbers, bs and rnum have their exact widths by type, so two checks remain.
-/

namespace Sys2Proof

/-- The instruction exists at this XLEN: R81 case (a) does not apply. -/
def Instr.existsAt (x : Xlen) : Instr → Bool
  | .clmul _ _ _ | .clmulh _ _ _ => true
  | .aes32esi _ _ _ _ | .aes32esmi _ _ _ _ | .aes32dsi _ _ _ _ | .aes32dsmi _ _ _ _ => x == .rv32
  | .aes64es _ _ _ | .aes64esm _ _ _ | .aes64ds _ _ _ | .aes64dsm _ _ _ => x == .rv64
  | .aes64im _ _ | .aes64ks1i _ _ _ | .aes64ks2 _ _ _ => x == .rv64
  | .sha256sig0 _ _ | .sha256sig1 _ _ | .sha256sum0 _ _ | .sha256sum1 _ _ => true
  | .sha512sig0 _ _ | .sha512sig1 _ _ | .sha512sum0 _ _ | .sha512sum1 _ _ => x == .rv64
  | .sha512sig0h _ _ _ | .sha512sig0l _ _ _ | .sha512sig1h _ _ _ | .sha512sig1l _ _ _ => x == .rv32
  | .sha512sum0r _ _ _ | .sha512sum1r _ _ _ => x == .rv32
  | .sm3p0 _ _ | .sm3p1 _ _ => true
  | .sm4ed _ _ _ _ | .sm4ks _ _ _ _ => true

/-- The round number is not reserved: R81 case (b) does not apply (30_encoding.md R31). -/
def Instr.selectorLegal : Instr → Bool
  | .aes64ks1i _ _ rnum => rnum.toNat ≤ 0xA
  | .clmul _ _ _ | .clmulh _ _ _ => true
  | .aes32esi _ _ _ _ | .aes32esmi _ _ _ _ | .aes32dsi _ _ _ _ | .aes32dsmi _ _ _ _ => true
  | .aes64es _ _ _ | .aes64esm _ _ _ | .aes64ds _ _ _ | .aes64dsm _ _ _ => true
  | .aes64im _ _ | .aes64ks2 _ _ _ => true
  | .sha256sig0 _ _ | .sha256sig1 _ _ | .sha256sum0 _ _ | .sha256sum1 _ _ => true
  | .sha512sig0 _ _ | .sha512sig1 _ _ | .sha512sum0 _ _ | .sha512sum1 _ _ => true
  | .sha512sig0h _ _ _ | .sha512sig0l _ _ _ | .sha512sig1h _ _ _ | .sha512sig1l _ _ _ => true
  | .sha512sum0r _ _ _ | .sha512sum1r _ _ _ => true
  | .sm3p0 _ _ | .sm3p1 _ _ => true
  | .sm4ed _ _ _ _ | .sm4ks _ _ _ _ => true

/-- The instruction is well formed at this XLEN: it raises no IllegalInstruction (60_exceptions.md R81). -/
def Instr.wellFormed (x : Xlen) (i : Instr) : Bool := i.existsAt x && i.selectorLegal

end Sys2Proof
end

