-- ==== Sys2Proof/Decode.lean ====
section
/-!
DEFINITION. The decoder of 30_encoding.md R33, over the match and mask columns of the opcode map R32,
and after it the encoder, over the funct columns of the same map and the formats R27 to R30.
-/

namespace Sys2Proof

/-! ### Fields (30_encoding.md R27 to R31, R33) -/

/-- rd = w[11:7]. -/
def rdField (w : Word) : Reg := w.extractLsb' 7 5

/-- rs1 = w[19:15]. -/
def rs1Field (w : Word) : Reg := w.extractLsb' 15 5

/-- rs2 = w[24:20], formats R and R-bs. -/
def rs2Field (w : Word) : Reg := w.extractLsb' 20 5

/-- bs = w[31:30], format R-bs. -/
def bsField (w : Word) : BitVec 2 := w.extractLsb' 30 2

/-- rnum = w[23:20], format I-rnum. -/
def rnumField (w : Word) : BitVec 4 := w.extractLsb' 20 4

/-! ### The opcode map -/

/-- One row of the opcode map (30_encoding.md R32): the word w selects it when w & mask = match. -/
structure OpcodeRow where
  op : Op
  mtch : Word
  mask : Word
  deriving DecidableEq, Repr

/-- The word has the row's fixed bits. -/
def OpcodeRow.selects (r : OpcodeRow) (w : Word) : Bool := w &&& r.mask == r.mtch

/-- The match and mask columns of 30_encoding.md R32. -/
def opcodeRows : List OpcodeRow := [
  ⟨.clmul,       0x0A001033, 0xFE00707F⟩,
  ⟨.clmulh,      0x0A003033, 0xFE00707F⟩,
  ⟨.aes32esi,    0x22000033, 0x3E00707F⟩,
  ⟨.aes32esmi,   0x26000033, 0x3E00707F⟩,
  ⟨.aes32dsi,    0x2A000033, 0x3E00707F⟩,
  ⟨.aes32dsmi,   0x2E000033, 0x3E00707F⟩,
  ⟨.aes64es,     0x32000033, 0xFE00707F⟩,
  ⟨.aes64esm,    0x36000033, 0xFE00707F⟩,
  ⟨.aes64ds,     0x3A000033, 0xFE00707F⟩,
  ⟨.aes64dsm,    0x3E000033, 0xFE00707F⟩,
  ⟨.aes64im,     0x30001013, 0xFFF0707F⟩,
  ⟨.aes64ks1i,   0x31001013, 0xFF00707F⟩,
  ⟨.aes64ks2,    0x7E000033, 0xFE00707F⟩,
  ⟨.sha256sig0,  0x10201013, 0xFFF0707F⟩,
  ⟨.sha256sig1,  0x10301013, 0xFFF0707F⟩,
  ⟨.sha256sum0,  0x10001013, 0xFFF0707F⟩,
  ⟨.sha256sum1,  0x10101013, 0xFFF0707F⟩,
  ⟨.sha512sig0,  0x10601013, 0xFFF0707F⟩,
  ⟨.sha512sig1,  0x10701013, 0xFFF0707F⟩,
  ⟨.sha512sum0,  0x10401013, 0xFFF0707F⟩,
  ⟨.sha512sum1,  0x10501013, 0xFFF0707F⟩,
  ⟨.sha512sig0h, 0x5C000033, 0xFE00707F⟩,
  ⟨.sha512sig0l, 0x54000033, 0xFE00707F⟩,
  ⟨.sha512sig1h, 0x5E000033, 0xFE00707F⟩,
  ⟨.sha512sig1l, 0x56000033, 0xFE00707F⟩,
  ⟨.sha512sum0r, 0x50000033, 0xFE00707F⟩,
  ⟨.sha512sum1r, 0x52000033, 0xFE00707F⟩,
  ⟨.sm3p0,       0x10801013, 0xFFF0707F⟩,
  ⟨.sm3p1,       0x10901013, 0xFFF0707F⟩,
  ⟨.sm4ed,       0x30000033, 0x3E00707F⟩,
  ⟨.sm4ks,       0x34000033, 0x3E00707F⟩]

/-- The XLEN column of 30_encoding.md R32. -/
def opExistsAt (x : Xlen) : Op → Bool
  | .clmul | .clmulh => true
  | .aes32esi | .aes32esmi | .aes32dsi | .aes32dsmi => x == .rv32
  | .aes64es | .aes64esm | .aes64ds | .aes64dsm | .aes64im | .aes64ks1i | .aes64ks2 => x == .rv64
  | .sha256sig0 | .sha256sig1 | .sha256sum0 | .sha256sum1 => true
  | .sha512sig0 | .sha512sig1 | .sha512sum0 | .sha512sum1 => x == .rv64
  | .sha512sig0h | .sha512sig0l | .sha512sig1h | .sha512sig1l => x == .rv32
  | .sha512sum0r | .sha512sum1r => x == .rv32
  | .sm3p0 | .sm3p1 | .sm4ed | .sm4ks => true

/-- The round numbers 0xB to 0xF of aes64ks1i are reserved; no other operation has a reserved
selector (30_encoding.md R31, R34). -/
def opSelectorLegal (op : Op) (rnum : BitVec 4) : Bool := !(op == .aes64ks1i && rnum > 0xA)

/-- The operation with this round number is legal at this XLEN: neither case of 60_exceptions.md R81. -/
def opLegal (x : Xlen) (op : Op) (rnum : BitVec 4) : Bool := opExistsAt x op && opSelectorLegal op rnum

/-! ### Decoding -/

/-- The instruction a word of the operation's row stands for, its fields read as R33 says. -/
def instrOf (op : Op) (w : Word) : Instr :=
  match op with
  | .clmul => .clmul (rdField w) (rs1Field w) (rs2Field w)
  | .clmulh => .clmulh (rdField w) (rs1Field w) (rs2Field w)
  | .aes32esi => .aes32esi (rdField w) (rs1Field w) (rs2Field w) (bsField w)
  | .aes32esmi => .aes32esmi (rdField w) (rs1Field w) (rs2Field w) (bsField w)
  | .aes32dsi => .aes32dsi (rdField w) (rs1Field w) (rs2Field w) (bsField w)
  | .aes32dsmi => .aes32dsmi (rdField w) (rs1Field w) (rs2Field w) (bsField w)
  | .aes64es => .aes64es (rdField w) (rs1Field w) (rs2Field w)
  | .aes64esm => .aes64esm (rdField w) (rs1Field w) (rs2Field w)
  | .aes64ds => .aes64ds (rdField w) (rs1Field w) (rs2Field w)
  | .aes64dsm => .aes64dsm (rdField w) (rs1Field w) (rs2Field w)
  | .aes64im => .aes64im (rdField w) (rs1Field w)
  | .aes64ks1i => .aes64ks1i (rdField w) (rs1Field w) (rnumField w)
  | .aes64ks2 => .aes64ks2 (rdField w) (rs1Field w) (rs2Field w)
  | .sha256sig0 => .sha256sig0 (rdField w) (rs1Field w)
  | .sha256sig1 => .sha256sig1 (rdField w) (rs1Field w)
  | .sha256sum0 => .sha256sum0 (rdField w) (rs1Field w)
  | .sha256sum1 => .sha256sum1 (rdField w) (rs1Field w)
  | .sha512sig0 => .sha512sig0 (rdField w) (rs1Field w)
  | .sha512sig1 => .sha512sig1 (rdField w) (rs1Field w)
  | .sha512sum0 => .sha512sum0 (rdField w) (rs1Field w)
  | .sha512sum1 => .sha512sum1 (rdField w) (rs1Field w)
  | .sha512sig0h => .sha512sig0h (rdField w) (rs1Field w) (rs2Field w)
  | .sha512sig0l => .sha512sig0l (rdField w) (rs1Field w) (rs2Field w)
  | .sha512sig1h => .sha512sig1h (rdField w) (rs1Field w) (rs2Field w)
  | .sha512sig1l => .sha512sig1l (rdField w) (rs1Field w) (rs2Field w)
  | .sha512sum0r => .sha512sum0r (rdField w) (rs1Field w) (rs2Field w)
  | .sha512sum1r => .sha512sum1r (rdField w) (rs1Field w) (rs2Field w)
  | .sm3p0 => .sm3p0 (rdField w) (rs1Field w)
  | .sm3p1 => .sm3p1 (rdField w) (rs1Field w)
  | .sm4ed => .sm4ed (rdField w) (rs1Field w) (rs2Field w) (bsField w)
  | .sm4ks => .sm4ks (rdField w) (rs1Field w) (rs2Field w) (bsField w)

/-- The instruction of the row the word selects, whatever the XLEN and the round number. -/
def rowInstr (w : Word) : Option Instr :=
  (opcodeRows.find? (·.selects w)).map (fun r => instrOf r.op w)

/-- The operation of an instruction. -/
def Instr.op : Instr → Op
  | .clmul _ _ _ => .clmul
  | .clmulh _ _ _ => .clmulh
  | .aes32esi _ _ _ _ => .aes32esi
  | .aes32esmi _ _ _ _ => .aes32esmi
  | .aes32dsi _ _ _ _ => .aes32dsi
  | .aes32dsmi _ _ _ _ => .aes32dsmi
  | .aes64es _ _ _ => .aes64es
  | .aes64esm _ _ _ => .aes64esm
  | .aes64ds _ _ _ => .aes64ds
  | .aes64dsm _ _ _ => .aes64dsm
  | .aes64im _ _ => .aes64im
  | .aes64ks1i _ _ _ => .aes64ks1i
  | .aes64ks2 _ _ _ => .aes64ks2
  | .sha256sig0 _ _ => .sha256sig0
  | .sha256sig1 _ _ => .sha256sig1
  | .sha256sum0 _ _ => .sha256sum0
  | .sha256sum1 _ _ => .sha256sum1
  | .sha512sig0 _ _ => .sha512sig0
  | .sha512sig1 _ _ => .sha512sig1
  | .sha512sum0 _ _ => .sha512sum0
  | .sha512sum1 _ _ => .sha512sum1
  | .sha512sig0h _ _ _ => .sha512sig0h
  | .sha512sig0l _ _ _ => .sha512sig0l
  | .sha512sig1h _ _ _ => .sha512sig1h
  | .sha512sig1l _ _ _ => .sha512sig1l
  | .sha512sum0r _ _ _ => .sha512sum0r
  | .sha512sum1r _ _ _ => .sha512sum1r
  | .sm3p0 _ _ => .sm3p0
  | .sm3p1 _ _ => .sm3p1
  | .sm4ed _ _ _ _ => .sm4ed
  | .sm4ks _ _ _ _ => .sm4ks

/-- The round number of an aes64ks1i; 0 for an instruction without one, which never reads it. -/
def Instr.rnumOrZero : Instr → BitVec 4
  | .aes64ks1i _ _ rnum => rnum
  | .clmul _ _ _ | .clmulh _ _ _ => 0
  | .aes32esi _ _ _ _ | .aes32esmi _ _ _ _ | .aes32dsi _ _ _ _ | .aes32dsmi _ _ _ _ => 0
  | .aes64es _ _ _ | .aes64esm _ _ _ | .aes64ds _ _ _ | .aes64dsm _ _ _ => 0
  | .aes64im _ _ | .aes64ks2 _ _ _ => 0
  | .sha256sig0 _ _ | .sha256sig1 _ _ | .sha256sum0 _ _ | .sha256sum1 _ _ => 0
  | .sha512sig0 _ _ | .sha512sig1 _ _ | .sha512sum0 _ _ | .sha512sum1 _ _ => 0
  | .sha512sig0h _ _ _ | .sha512sig0l _ _ _ | .sha512sig1h _ _ _ | .sha512sig1l _ _ _ => 0
  | .sha512sum0r _ _ _ | .sha512sum1r _ _ _ => 0
  | .sm3p0 _ _ | .sm3p1 _ _ => 0
  | .sm4ed _ _ _ _ | .sm4ks _ _ _ _ => 0

/-- The instruction is legal at this XLEN: the two checks of 30_encoding.md R33. -/
def legalAt (x : Xlen) (i : Instr) : Bool := opLegal x i.op i.rnumOrZero

/-- What decoding a word can answer (30_encoding.md R33): an instruction; IllegalInstruction with the
word; or NotThisBlock with the word. -/
inductive Decoded where
  | instr (i : Instr)
  | illegal (w : Word)
  | notThisBlock (w : Word)
  deriving DecidableEq, Repr

/-- decode(w, XLEN) of 30_encoding.md R33, total on all words. -/
def decode (x : Xlen) (w : Word) : Decoded :=
  match rowInstr w with
  | none => .notThisBlock w
  | some i => if legalAt x i then .instr i else .illegal w

/-- The word four bytes hold in memory, the lowest address first: little-endian (20_memory.md R23). -/
def wordOfBytes (b0 b1 b2 b3 : Byte) : Word := b3 ++ b2 ++ b1 ++ b0

/-- Why a list of bytes is not decoded. -/
inductive DecodeError where
  /-- Fewer than four bytes: every instruction is 4 bytes long (30_encoding.md R26). -/
  | tooShort
  deriving DecidableEq, Repr

/-- Decoding the bytes at an instruction's address. -/
def decodeBytes (x : Xlen) : List Byte → Except DecodeError Decoded
  | b0 :: b1 :: b2 :: b3 :: _ => .ok (decode x (wordOfBytes b0 b1 b2 b3))
  | _ => .error .tooShort

/-! ### Encoding -/

/-- Format R (30_encoding.md R27). -/
def encodeR (funct7 : BitVec 7) (funct3 : BitVec 3) (rd rs1 rs2 : Reg) : Word :=
  funct7 ++ rs2 ++ rs1 ++ funct3 ++ rd ++ 0b0110011#7

/-- Format R-bs (30_encoding.md R28). -/
def encodeRbs (funct5 : BitVec 5) (rd rs1 rs2 : Reg) (bs : BitVec 2) : Word :=
  bs ++ funct5 ++ rs2 ++ rs1 ++ 0b000#3 ++ rd ++ 0b0110011#7

/-- Format I-unary (30_encoding.md R29). -/
def encodeIunary (funct12 : BitVec 12) (rd rs1 : Reg) : Word :=
  funct12 ++ rs1 ++ 0b001#3 ++ rd ++ 0b0010011#7

/-- Format I-rnum (30_encoding.md R30). -/
def encodeIrnum (rd rs1 : Reg) (rnum : BitVec 4) : Word :=
  0b00110001#8 ++ rnum ++ rs1 ++ 0b001#3 ++ rd ++ 0b0010011#7

/-- The word of an instruction, from the funct columns of 30_encoding.md R32. -/
def encode : Instr → Word
  | .clmul rd rs1 rs2 => encodeR 0b0000101 0b001 rd rs1 rs2
  | .clmulh rd rs1 rs2 => encodeR 0b0000101 0b011 rd rs1 rs2
  | .aes32esi rd rs1 rs2 bs => encodeRbs 0b10001 rd rs1 rs2 bs
  | .aes32esmi rd rs1 rs2 bs => encodeRbs 0b10011 rd rs1 rs2 bs
  | .aes32dsi rd rs1 rs2 bs => encodeRbs 0b10101 rd rs1 rs2 bs
  | .aes32dsmi rd rs1 rs2 bs => encodeRbs 0b10111 rd rs1 rs2 bs
  | .aes64es rd rs1 rs2 => encodeR 0b0011001 0b000 rd rs1 rs2
  | .aes64esm rd rs1 rs2 => encodeR 0b0011011 0b000 rd rs1 rs2
  | .aes64ds rd rs1 rs2 => encodeR 0b0011101 0b000 rd rs1 rs2
  | .aes64dsm rd rs1 rs2 => encodeR 0b0011111 0b000 rd rs1 rs2
  | .aes64im rd rs1 => encodeIunary 0b001100000000 rd rs1
  | .aes64ks1i rd rs1 rnum => encodeIrnum rd rs1 rnum
  | .aes64ks2 rd rs1 rs2 => encodeR 0b0111111 0b000 rd rs1 rs2
  | .sha256sig0 rd rs1 => encodeIunary 0b000100000010 rd rs1
  | .sha256sig1 rd rs1 => encodeIunary 0b000100000011 rd rs1
  | .sha256sum0 rd rs1 => encodeIunary 0b000100000000 rd rs1
  | .sha256sum1 rd rs1 => encodeIunary 0b000100000001 rd rs1
  | .sha512sig0 rd rs1 => encodeIunary 0b000100000110 rd rs1
  | .sha512sig1 rd rs1 => encodeIunary 0b000100000111 rd rs1
  | .sha512sum0 rd rs1 => encodeIunary 0b000100000100 rd rs1
  | .sha512sum1 rd rs1 => encodeIunary 0b000100000101 rd rs1
  | .sha512sig0h rd rs1 rs2 => encodeR 0b0101110 0b000 rd rs1 rs2
  | .sha512sig0l rd rs1 rs2 => encodeR 0b0101010 0b000 rd rs1 rs2
  | .sha512sig1h rd rs1 rs2 => encodeR 0b0101111 0b000 rd rs1 rs2
  | .sha512sig1l rd rs1 rs2 => encodeR 0b0101011 0b000 rd rs1 rs2
  | .sha512sum0r rd rs1 rs2 => encodeR 0b0101000 0b000 rd rs1 rs2
  | .sha512sum1r rd rs1 rs2 => encodeR 0b0101001 0b000 rd rs1 rs2
  | .sm3p0 rd rs1 => encodeIunary 0b000100001000 rd rs1
  | .sm3p1 rd rs1 => encodeIunary 0b000100001001 rd rs1
  | .sm4ed rd rs1 rs2 bs => encodeRbs 0b11000 rd rs1 rs2 bs
  | .sm4ks rd rs1 rs2 bs => encodeRbs 0b11010 rd rs1 rs2 bs

/-! ### The host's question -/

/-- The instruction of a decoded word, where it is one. -/
def Decoded.instr? : Except DecodeError Decoded → Option Instr
  | .ok (.instr i) => some i
  | .ok (.illegal _) | .ok (.notThisBlock _) | .error _ => none

/-- The instruction the decoder reads from the table's bits w: the four bytes as the hardware stores
them, decoded at XLEN 64 and, where that refuses, at XLEN 32 (notes/assumptions/13.md). -/
def decodeTableWord (nbits w : Nat) : Option Instr :=
  let v := BitVec.ofNat 32 (w % 2 ^ nbits)
  let bytes := [v.extractLsb' 0 8, v.extractLsb' 8 8, v.extractLsb' 16 8, v.extractLsb' 24 8]
  match Decoded.instr? (decodeBytes .rv64 bytes) with
  | some i => some i
  | none => Decoded.instr? (decodeBytes .rv32 bytes)

end Sys2Proof
end

