-- ==== Sys2Proof/Machine/State.lean ====
section
/-!
DEFINITION. The state of the hart that hosts the block, the reasons a step stops, and the machine right
after reset (10_state.md, 60_exceptions.md R85 and R89, 70_reset_and_hazards.md R90). The block itself
holds no state (10_state.md R12, R14); its constant tables are definitions (Machine/Gf.lean).
-/

namespace Sys2Proof.Machine

/-- The fields of mstatus that trap entry and return use (60_exceptions.md R85, R86;
notes/assumptions/8.md). -/
structure Mstatus where
  mie : Bool
  mpie : Bool
  mpp : Mode
  deriving DecidableEq, Repr

/-- The fields of sstatus that trap entry and return use (60_exceptions.md R85, R86;
notes/assumptions/8.md). -/
structure Sstatus where
  sie : Bool
  spie : Bool
  spp : Mode
  deriving DecidableEq, Repr

/-- The whole machine state. XLEN-bit values stand in 64-bit containers (notes/assumptions/4.md). -/
structure State where
  /-- XLEN, fixed for the instance (00_scope.md R4). -/
  xlen : Xlen
  /-- HOST_MODES, fixed for the instance. -/
  hostModes : HostModes
  /-- HOST_TVAL_ILLEGAL_BITS, fixed for the instance. -/
  tvalIllegalBits : Bool
  /-- x[0] to x[31] (10_state.md R15); read and written by `readReg` and `writeReg` alone. -/
  x : Vector XWord 32
  /-- The address of the executing instruction (10_state.md R16). -/
  pc : XWord
  /-- The current privilege mode. -/
  mode : Mode
  mstatus : Mstatus
  mepc : XWord
  mcause : XWord
  mtval : XWord
  mtvec : Tvec
  /-- Bit n sends the exception of code n, raised in S or U, to S-mode. -/
  medeleg : BitVec 64
  sstatus : Sstatus
  sepc : XWord
  scause : XWord
  stval : XWord
  stvec : Tvec
  /-- The count of retired instructions (60_exceptions.md R89). -/
  minstret : BitVec 64
  /-- Host memory (20_memory.md R23): the bytes that have a value, addresses strictly rising. -/
  mem : List Host.Cell
  deriving DecidableEq, Repr

/-- Why a step stops with a fault. Both come from the fetch, before the block sees a word
(60_exceptions.md R82, R84), and both are safe: the model stops where a host goes on
(notes/assumptions/10.md). -/
inductive Fault where
  /-- Raised by `fetchWord`: the pc is not 4-byte aligned (20_memory.md R23). Safe. -/
  | fetchMisaligned (pc : XWord)
  /-- Raised by `fetchWord`: a byte of the instruction word has never been written. Safe. -/
  | fetchUnwritten (pc : XWord)
  deriving DecidableEq, Repr

/-- Why a step is refused. -/
inductive Refusal where
  /-- Raised by an arm of `exec` whose instruction has no meaning yet; no arm raises it. Safe. -/
  | notModelled (mnemonic : String)
  /-- Raised by `step`: the word is no instruction of the block, and what it does is the host's business
  (30_encoding.md R33, R34; notes/assumptions/5.md). Safe. -/
  | notThisBlock (word : Word)
  deriving DecidableEq, Repr

/-- The machine right after reset, for the parameters the host fixes: mode M, mstatus.MIE 0, pc at
HOST_RESET_PC, x[0] 0 (10_state.md R18, 70_reset_and_hazards.md R90). Every other register has no
reset value in the spec; the values here are DESIGN CHOICES (notes/assumptions/1.md, 3.md). -/
def State.resetWith (p : HostParams) : State where
  xlen := p.xlen
  hostModes := p.modes
  tvalIllegalBits := p.tvalIllegalBits
  x := Vector.replicate 32 0
  pc := p.resetPc
  mode := .m
  mstatus := { mie := false, mpie := false, mpp := .m }
  mepc := 0
  mcause := 0
  mtval := 0
  mtvec := p.mtvec
  medeleg := 0
  sstatus := { sie := false, spie := false, spp := .u }
  sepc := 0
  scause := 0
  stval := 0
  stvec := { base := 0, vectored := false }
  minstret := 0
  mem := []

/-- The machine right after reset, for the parameters of `defaultParams` (notes/assumptions/2.md). -/
def State.reset : State := State.resetWith defaultParams

end Sys2Proof.Machine
end

