-- ==== Sys2Proof/Machine/Ops.lean ====
section
/-!
DEFINITION. The named operations over the state: registers and pc, memory and fetch, taking an exception
and returning from one, and issuing an instruction of the block.
-/

namespace Sys2Proof.Machine

/-! ### Registers and pc (10_state.md R15, R16) -/

/-- x[r], an XLEN-bit value; x[0] reads as 0. -/
def State.readReg (s : State) (r : Reg) : XWord :=
  if r = 0#5 then 0#64 else truncX s.xlen (s.x[r.toNat]'r.isLt)

/-- x[r] <- v, cut to XLEN bits; a write to x[0] is discarded. -/
def State.writeReg (s : State) (r : Reg) (v : XWord) : State :=
  { s with x := if r = 0#5 then s.x else s.x.set r.toNat (truncX s.xlen v) r.isLt }

/-- The pc, an XLEN-bit value. -/
def State.readPc (s : State) : XWord := truncX s.xlen s.pc

/-- pc <- target, cut to XLEN bits. -/
def State.writePc (s : State) (target : XWord) : State := { s with pc := truncX s.xlen target }

/-- minstret + 1: the instruction retires (60_exceptions.md R89; width: notes/assumptions/11.md). -/
def State.countRetired (s : State) : State := { s with minstret := s.minstret + 1 }

/-- An instruction of the block completes: x[rd] <- v, pc <- pc + 4 modulo 2^XLEN, and it retires. -/
def State.retire (s : State) (rd : Reg) (v : XWord) : State :=
  ((s.writeReg rd v).writePc (s.readPc + 4)).countRetired

/-! ### Host memory (20_memory.md R23) -/

/-- What a list of cells holds at an address. A byte that is not listed has no value: the spec gives
memory no reset contents (DESIGN CHOICE, safe; notes/assumptions/10.md). -/
def cellGet : List Host.Cell → Nat → Option Byte
  | [], _ => none
  | (a, b) :: rest, addr => if addr = a then some b else cellGet rest addr

/-- The cells with the byte at an address written, addresses kept strictly rising. -/
def cellPut : List Host.Cell → Nat → Byte → List Host.Cell
  | [], addr, v => [(addr, v)]
  | (a, b) :: rest, addr, v =>
    if addr < a then (addr, v) :: (a, b) :: rest
    else if addr = a then (addr, v) :: rest
    else (a, b) :: cellPut rest addr v

/-- The cells are in their one canonical form: addresses strictly rising. -/
def Memory.wf : List Host.Cell → Bool
  | [] => true
  | [_] => true
  | (a, _) :: (b, w) :: rest => decide (a < b) && Memory.wf ((b, w) :: rest)

/-- The address as a key of memory: an XLEN-bit number. -/
def State.memKey (s : State) (addr : XWord) : Nat := (truncX s.xlen addr).toNat

/-- One byte of memory, where it has a value. -/
def State.readByte (s : State) (addr : XWord) : Option Byte := cellGet s.mem (s.memKey addr)

/-- One byte of memory written. -/
def State.writeByte (s : State) (addr : XWord) (v : Byte) : State :=
  { s with mem := cellPut s.mem (s.memKey addr) v }

/-- MemRead(addr, n): the n bytes at addr, little-endian, n up to 8 (00_scope.md R8, 20_memory.md R23).
The address wraps modulo 2^XLEN (notes/assumptions/10.md). Any address is served, aligned to n or not:
DESIGN CHOICE (unsafe), since 92_eei_decisions.md D12 leaves a misaligned access open
(notes/assumptions/18.md). No instruction of the block uses it. -/
def State.memRead (s : State) (addr : XWord) : Nat → Option XWord
  | 0 => some 0
  | n + 1 =>
    match s.readByte addr with
    | none => none
    | some b => (State.memRead s (addr + 1) n).map fun (rest : XWord) => b.setWidth 64 ||| rest <<< 8

/-- MemWrite(addr, n, v): the low n bytes of v at addr, little-endian (00_scope.md R8, 20_memory.md R23).
The address wraps as for `memRead`, and any address is served, aligned to n or not: DESIGN CHOICE (unsafe;
notes/assumptions/18.md). No instruction of the block uses it. -/
def State.memWrite (s : State) (addr : XWord) : Nat → XWord → State
  | 0, _ => s
  | n + 1, v => State.memWrite (s.writeByte addr (byteAt v 0)) (addr + 1) n (v >>> 8)

/-- The instruction word at the pc: 4-byte-aligned, little-endian (20_memory.md R23). The fetch's own
faults come before the block sees a word (60_exceptions.md R84). -/
def State.fetchWord (s : State) : Except Fault Word :=
  if s.readPc.extractLsb' 0 2 = 0 then
    match s.memRead s.readPc 4 with
    | some v => .ok (wordOfBytes (byteAt v 0) (byteAt v 1) (byteAt v 2) (byteAt v 3))
    | none => .error (.fetchUnwritten s.readPc)
  else .error (.fetchMisaligned s.readPc)

/-! ### Taking an exception and returning from one (60_exceptions.md R81, R85, R86) -/

/-- The exception code of IllegalInstruction (60_exceptions.md R81). -/
def illegalInstructionCode : Nat := 2

/-- The trap of this exception code enters S-mode: the host has S-mode, medeleg has the bit, and the
mode is S or U (60_exceptions.md R85). -/
def State.delegates (s : State) (code : Nat) : Bool :=
  s.hostModes.hasS && s.medeleg.getLsbD code && s.mode != .m

/-- Trap entry into M-mode (60_exceptions.md R85). -/
def State.enterM (s : State) (code : Nat) (tval : XWord) : State :=
  { s with
    mepc := s.readPc
    mcause := BitVec.ofNat 64 code
    mtval := truncX s.xlen tval
    mstatus := { mie := false, mpie := s.mstatus.mie, mpp := s.mode }
    mode := .m
    pc := truncX s.xlen s.mtvec.base }

/-- Trap entry into S-mode, through the s-prefixed registers (60_exceptions.md R85). -/
def State.enterS (s : State) (code : Nat) (tval : XWord) : State :=
  { s with
    sepc := s.readPc
    scause := BitVec.ofNat 64 code
    stval := truncX s.xlen tval
    sstatus := { sie := false, spie := s.sstatus.sie, spp := s.mode }
    mode := .s
    pc := truncX s.xlen s.stvec.base }

/-- Taking an exception: the one way a trap is entered (60_exceptions.md R85). -/
def State.takeException (s : State) (code : Nat) (tval : XWord) : State :=
  if s.delegates code then s.enterS code tval else s.enterM code tval

/-- raise IllegalInstruction(bits): no register is written and pc is not advanced; the trap value is the
word, zero-extended (notes/assumptions/6.md), or 0 by HOST_TVAL_ILLEGAL_BITS (60_exceptions.md R81). -/
def State.raiseIllegal (s : State) (bits : Word) : State :=
  s.takeException illegalInstructionCode (if s.tvalIllegalBits then bits.setWidth 64 else 0#64)

/-- mret: the mode and the interrupt enable restored, pc <- mepc (60_exceptions.md R86; nothing else,
notes/assumptions/9.md). No instruction of the table performs it. -/
def State.returnM (s : State) : State :=
  { s with
    mode := s.mstatus.mpp
    mstatus := { s.mstatus with mie := s.mstatus.mpie }
    pc := truncX s.xlen s.mepc }

/-- sret: the mode and the interrupt enable restored, pc <- sepc (60_exceptions.md R86; nothing else,
notes/assumptions/9.md). No instruction of the table performs it. -/
def State.returnS (s : State) : State :=
  { s with
    mode := s.sstatus.spp
    sstatus := { s.sstatus with sie := s.sstatus.spie }
    pc := truncX s.xlen s.sepc }

/-! ### Issuing an instruction of the block -/

/-- The instruction i with result v for x[rd]: where it is legal it completes; else it raises
IllegalInstruction with its word (60_exceptions.md R81). The word is `encode i`
(notes/assumptions/16.md). -/
def State.issue (s : State) (i : Instr) (rd : Reg) (v : XWord) : Host.Outcome State Fault Refusal :=
  if legalAt s.xlen i then .next (s.retire rd v) else .next (s.raiseIllegal (encode i))

end Sys2Proof.Machine
end

