-- ==== Sys2Proof/Machine/Operands.lean ====
section
/-!
DEFINITION. The operand forms the instructions share: 32-bit sources, the selected byte of the R-bs
format and its rotation back, and the AES state of the 64-bit forms.
-/

namespace Sys2Proof.Machine

/-- x[r][31:0]: all an instruction with a 32-bit result reads of a source (00_scope.md R10), and the
whole register at XLEN 32. -/
def State.readWord (s : State) (r : Reg) : Word := lowWord (s.readReg r)

/-- The R-bs form: the accumulator XORed with a contribution of byte bs of the source, rotated left by
8*bs bits (20_memory.md R20). -/
def slotted (contribution : Byte → Word) (acc src : Word) (bs : BitVec 2) : Word :=
  acc ^^^ rol (contribution (byteAt src bs.toNat)) (8 * bs.toNat)

/-- The AES state S = x[rs2] @ x[rs1] (20_memory.md R21). -/
def aesState (a b : Dword) : BitVec 128 := b ++ a

/-- One function on each of the two columns of a doubleword. -/
def onColumns (f : Word → Word) (v : Dword) : Dword := f (highWord v) ++ f (lowWord v)

end Sys2Proof.Machine
end

