-- ==== Sys2Proof/Machine/Aes32.lean ====
section
/-!
DEFINITION. AES round function, 32-bit sliced form (42_aes32.md R51 to R54; 90_conflicts.md C3: no
ShiftRows inside the instruction, the contribution XORed into rs1).
-/

namespace Sys2Proof.Machine

/-- Final-round encryption of one byte (42_aes32.md R51). -/
def aes32esiResult (acc src : Word) (bs : BitVec 2) : Word :=
  slotted (fun si => (aesSbox si).setWidth 32) acc src bs

/-- Middle-round encryption of one byte (42_aes32.md R52). -/
def aes32esmiResult (acc src : Word) (bs : BitVec 2) : Word :=
  slotted (fun si => aesMixcolumnByteFwd (aesSbox si)) acc src bs

/-- Final-round decryption of one byte (42_aes32.md R53). -/
def aes32dsiResult (acc src : Word) (bs : BitVec 2) : Word :=
  slotted (fun si => (aesInvSbox si).setWidth 32) acc src bs

/-- Middle-round decryption of one byte (42_aes32.md R54). -/
def aes32dsmiResult (acc src : Word) (bs : BitVec 2) : Word :=
  slotted (fun si => aesMixcolumnByteInv (aesInvSbox si)) acc src bs

/-- aes32esi rd, rs1, rs2, bs (42_aes32.md R51). -/
def execAes32esi (rd rs1 rs2 : Reg) (bs : BitVec 2) (s : State) : Host.Outcome State Fault Refusal :=
  s.issue (.aes32esi rd rs1 rs2 bs) rd ((aes32esiResult (s.readWord rs1) (s.readWord rs2) bs).setWidth 64)

/-- aes32esmi rd, rs1, rs2, bs (42_aes32.md R52). -/
def execAes32esmi (rd rs1 rs2 : Reg) (bs : BitVec 2) (s : State) : Host.Outcome State Fault Refusal :=
  s.issue (.aes32esmi rd rs1 rs2 bs) rd ((aes32esmiResult (s.readWord rs1) (s.readWord rs2) bs).setWidth 64)

/-- aes32dsi rd, rs1, rs2, bs (42_aes32.md R53). -/
def execAes32dsi (rd rs1 rs2 : Reg) (bs : BitVec 2) (s : State) : Host.Outcome State Fault Refusal :=
  s.issue (.aes32dsi rd rs1 rs2 bs) rd ((aes32dsiResult (s.readWord rs1) (s.readWord rs2) bs).setWidth 64)

/-- aes32dsmi rd, rs1, rs2, bs (42_aes32.md R54). -/
def execAes32dsmi (rd rs1 rs2 : Reg) (bs : BitVec 2) (s : State) : Host.Outcome State Fault Refusal :=
  s.issue (.aes32dsmi rd rs1 rs2 bs) rd ((aes32dsmiResult (s.readWord rs1) (s.readWord rs2) bs).setWidth 64)

end Sys2Proof.Machine
end

