-- ==== Sys2Proof/Machine/Aes64.lean ====
section
/-!
DEFINITION. AES round function, 64-bit form, and the AES key schedule (43_aes64.md R55 to R61).
-/

namespace Sys2Proof.Machine

/-- ShiftRows, SubBytes: the half of columns 0 and 1 (43_aes64.md R55). -/
def aes64esResult (a b : Dword) : Dword :=
  onColumns aesSubword ((aesShiftrowsFwd (aesState a b)).extractLsb' 0 64)

/-- ShiftRows, SubBytes, MixColumns (43_aes64.md R56). -/
def aes64esmResult (a b : Dword) : Dword :=
  onColumns aesMixcolumnFwd (onColumns aesSubword ((aesShiftrowsFwd (aesState a b)).extractLsb' 0 64))

/-- InvShiftRows, InvSubBytes (43_aes64.md R57). -/
def aes64dsResult (a b : Dword) : Dword :=
  onColumns aesInvSubword ((aesShiftrowsInv (aesState a b)).extractLsb' 0 64)

/-- InvShiftRows, InvSubBytes, InvMixColumns (43_aes64.md R58). -/
def aes64dsmResult (a b : Dword) : Dword :=
  onColumns aesMixcolumnInv (onColumns aesInvSubword ((aesShiftrowsInv (aesState a b)).extractLsb' 0 64))

/-- InvMixColumns on two columns (43_aes64.md R59). -/
def aes64imResult (a : Dword) : Dword := onColumns aesMixcolumnInv a

/-- Key schedule, first step (43_aes64.md R60; 90_conflicts.md C4: RotWord except at rnum 0xA). -/
def aes64ks1iResult (a : Dword) (rnum : BitVec 4) : Dword :=
  let t1 := highWord a
  let t2 := if rnum = 0xA then t1 else ror t1 8
  let w := aesSubword t2 ^^^ aesRcon rnum
  w ++ w

/-- Key schedule, second step (43_aes64.md R61). -/
def aes64ks2Result (a b : Dword) : Dword :=
  let w0 := highWord a ^^^ lowWord b
  let w1 := w0 ^^^ highWord b
  w1 ++ w0

/-- aes64es rd, rs1, rs2 (43_aes64.md R55). -/
def execAes64es (rd rs1 rs2 : Reg) (s : State) : Host.Outcome State Fault Refusal :=
  s.issue (.aes64es rd rs1 rs2) rd (aes64esResult (s.readReg rs1) (s.readReg rs2))

/-- aes64esm rd, rs1, rs2 (43_aes64.md R56). -/
def execAes64esm (rd rs1 rs2 : Reg) (s : State) : Host.Outcome State Fault Refusal :=
  s.issue (.aes64esm rd rs1 rs2) rd (aes64esmResult (s.readReg rs1) (s.readReg rs2))

/-- aes64ds rd, rs1, rs2 (43_aes64.md R57). -/
def execAes64ds (rd rs1 rs2 : Reg) (s : State) : Host.Outcome State Fault Refusal :=
  s.issue (.aes64ds rd rs1 rs2) rd (aes64dsResult (s.readReg rs1) (s.readReg rs2))

/-- aes64dsm rd, rs1, rs2 (43_aes64.md R58). -/
def execAes64dsm (rd rs1 rs2 : Reg) (s : State) : Host.Outcome State Fault Refusal :=
  s.issue (.aes64dsm rd rs1 rs2) rd (aes64dsmResult (s.readReg rs1) (s.readReg rs2))

/-- aes64im rd, rs1 (43_aes64.md R59). -/
def execAes64im (rd rs1 : Reg) (s : State) : Host.Outcome State Fault Refusal :=
  s.issue (.aes64im rd rs1) rd (aes64imResult (s.readReg rs1))

/-- aes64ks1i rd, rs1, rnum (43_aes64.md R60). -/
def execAes64ks1i (rd rs1 : Reg) (rnum : BitVec 4) (s : State) : Host.Outcome State Fault Refusal :=
  s.issue (.aes64ks1i rd rs1 rnum) rd (aes64ks1iResult (s.readReg rs1) rnum)

/-- aes64ks2 rd, rs1, rs2 (43_aes64.md R61). -/
def execAes64ks2 (rd rs1 rs2 : Reg) (s : State) : Host.Outcome State Fault Refusal :=
  s.issue (.aes64ks2 rd rs1 rs2) rd (aes64ks2Result (s.readReg rs1) (s.readReg rs2))

end Sys2Proof.Machine
end

