-- ==== Sys2Proof/Machine/Clmul.lean ====
section
/-!
DEFINITION. Carry-less multiply (41_clmul.md R49, R50).
-/

namespace Sys2Proof.Machine

/-- The XOR of a shifted by every listed position whose bit of b is set. -/
def clmulSum {w : Nat} (a b : BitVec w) : List Nat → BitVec (2 * w)
  | [] => 0
  | i :: is => clmulSum a b is ^^^ (if b.getLsbD i then a.setWidth (2 * w) <<< i else 0)

/-- clmul_full: the schoolbook product of two XLEN-bit values, 2*XLEN bits (41_clmul.md). -/
def clmulFull {w : Nat} (a b : BitVec w) : BitVec (2 * w) := clmulSum a b (List.range w)

/-- clmul_full(a, b)[XLEN-1 : 0] (41_clmul.md R49). -/
def clmulResult (x : Xlen) (a b : XWord) : XWord :=
  match x with
  | .rv32 => ((clmulFull (lowWord a) (lowWord b)).extractLsb' 0 32).setWidth 64
  | .rv64 => (clmulFull a b).extractLsb' 0 64

/-- clmul_full(a, b)[2*XLEN-1 : XLEN] (41_clmul.md R50). -/
def clmulhResult (x : Xlen) (a b : XWord) : XWord :=
  match x with
  | .rv32 => ((clmulFull (lowWord a) (lowWord b)).extractLsb' 32 32).setWidth 64
  | .rv64 => (clmulFull a b).extractLsb' 64 64

/-- clmul rd, rs1, rs2 (41_clmul.md R49). -/
def execClmul (rd rs1 rs2 : Reg) (s : State) : Host.Outcome State Fault Refusal :=
  s.issue (.clmul rd rs1 rs2) rd (clmulResult s.xlen (s.readReg rs1) (s.readReg rs2))

/-- clmulh rd, rs1, rs2 (41_clmul.md R50). -/
def execClmulh (rd rs1 rs2 : Reg) (s : State) : Host.Outcome State Fault Refusal :=
  s.issue (.clmulh rd rs1 rs2) rd (clmulhResult s.xlen (s.readReg rs1) (s.readReg rs2))

end Sys2Proof.Machine
end

