-- ==== Sys2Proof/Machine/Sha256.lean ====
section
/-!
DEFINITION. SHA-256 round and message-schedule functions (44_sha256.md R62 to R65).
-/

namespace Sys2Proof.Machine

/-- σ0 (44_sha256.md R62). -/
def sha256sig0Result (v : Word) : Word := ror v 7 ^^^ ror v 18 ^^^ (v >>> 3)

/-- σ1 (44_sha256.md R63). -/
def sha256sig1Result (v : Word) : Word := ror v 17 ^^^ ror v 19 ^^^ (v >>> 10)

/-- Σ0 (44_sha256.md R64). -/
def sha256sum0Result (v : Word) : Word := ror v 2 ^^^ ror v 13 ^^^ ror v 22

/-- Σ1 (44_sha256.md R65). -/
def sha256sum1Result (v : Word) : Word := ror v 6 ^^^ ror v 11 ^^^ ror v 25

/-- sha256sig0 rd, rs1 (44_sha256.md R62). -/
def execSha256sig0 (rd rs1 : Reg) (s : State) : Host.Outcome State Fault Refusal :=
  s.issue (.sha256sig0 rd rs1) rd (result32 s.xlen (sha256sig0Result (s.readWord rs1)))

/-- sha256sig1 rd, rs1 (44_sha256.md R63). -/
def execSha256sig1 (rd rs1 : Reg) (s : State) : Host.Outcome State Fault Refusal :=
  s.issue (.sha256sig1 rd rs1) rd (result32 s.xlen (sha256sig1Result (s.readWord rs1)))

/-- sha256sum0 rd, rs1 (44_sha256.md R64). -/
def execSha256sum0 (rd rs1 : Reg) (s : State) : Host.Outcome State Fault Refusal :=
  s.issue (.sha256sum0 rd rs1) rd (result32 s.xlen (sha256sum0Result (s.readWord rs1)))

/-- sha256sum1 rd, rs1 (44_sha256.md R65). -/
def execSha256sum1 (rd rs1 : Reg) (s : State) : Host.Outcome State Fault Refusal :=
  s.issue (.sha256sum1 rd rs1) rd (result32 s.xlen (sha256sum1Result (s.readWord rs1)))

end Sys2Proof.Machine
end

