-- ==== Sys2Proof/Machine/Sha512.lean ====
section
/-!
DEFINITION. SHA-512 round and message-schedule functions, 64-bit and 32-bit split forms
(45_sha512.md R66 to R76).
-/

namespace Sys2Proof.Machine

/-! ### 64-bit forms -/

/-- sha512_sig0 (45_sha512.md R66). -/
def sha512sig0Result (v : Dword) : Dword := ror v 1 ^^^ ror v 8 ^^^ (v >>> 7)

/-- sha512_sig1 (45_sha512.md R66). -/
def sha512sig1Result (v : Dword) : Dword := ror v 19 ^^^ ror v 61 ^^^ (v >>> 6)

/-- sha512_sum0 (45_sha512.md R66). -/
def sha512sum0Result (v : Dword) : Dword := ror v 28 ^^^ ror v 34 ^^^ ror v 39

/-- sha512_sum1 (45_sha512.md R66). -/
def sha512sum1Result (v : Dword) : Dword := ror v 14 ^^^ ror v 18 ^^^ ror v 41

/-- sha512sig0 rd, rs1 (45_sha512.md R67). -/
def execSha512sig0 (rd rs1 : Reg) (s : State) : Host.Outcome State Fault Refusal :=
  s.issue (.sha512sig0 rd rs1) rd (sha512sig0Result (s.readReg rs1))

/-- sha512sig1 rd, rs1 (45_sha512.md R68). -/
def execSha512sig1 (rd rs1 : Reg) (s : State) : Host.Outcome State Fault Refusal :=
  s.issue (.sha512sig1 rd rs1) rd (sha512sig1Result (s.readReg rs1))

/-- sha512sum0 rd, rs1 (45_sha512.md R69). -/
def execSha512sum0 (rd rs1 : Reg) (s : State) : Host.Outcome State Fault Refusal :=
  s.issue (.sha512sum0 rd rs1) rd (sha512sum0Result (s.readReg rs1))

/-- sha512sum1 rd, rs1 (45_sha512.md R70). -/
def execSha512sum1 (rd rs1 : Reg) (s : State) : Host.Outcome State Fault Refusal :=
  s.issue (.sha512sum1 rd rs1) rd (sha512sum1Result (s.readReg rs1))

/-! ### 32-bit split forms -/

/-- High half of σ0 (45_sha512.md R71). -/
def sha512sig0hResult (a b : Word) : Word :=
  (a >>> 1) ^^^ (a >>> 7) ^^^ (a >>> 8) ^^^ (b <<< 31) ^^^ (b <<< 24)

/-- Low half of σ0 (45_sha512.md R72). -/
def sha512sig0lResult (a b : Word) : Word :=
  (a >>> 1) ^^^ (a >>> 7) ^^^ (a >>> 8) ^^^ (b <<< 31) ^^^ (b <<< 25) ^^^ (b <<< 24)

/-- High half of σ1 (45_sha512.md R73). -/
def sha512sig1hResult (a b : Word) : Word :=
  (a <<< 3) ^^^ (a >>> 6) ^^^ (a >>> 19) ^^^ (b >>> 29) ^^^ (b <<< 13)

/-- Low half of σ1 (45_sha512.md R74). -/
def sha512sig1lResult (a b : Word) : Word :=
  (a <<< 3) ^^^ (a >>> 6) ^^^ (a >>> 19) ^^^ (b >>> 29) ^^^ (b <<< 26) ^^^ (b <<< 13)

/-- One half of Σ0 (45_sha512.md R75). -/
def sha512sum0rResult (a b : Word) : Word :=
  (a <<< 25) ^^^ (a <<< 30) ^^^ (a >>> 28) ^^^ (b >>> 7) ^^^ (b >>> 2) ^^^ (b <<< 4)

/-- One half of Σ1 (45_sha512.md R76). -/
def sha512sum1rResult (a b : Word) : Word :=
  (a <<< 23) ^^^ (a >>> 14) ^^^ (a >>> 18) ^^^ (b >>> 9) ^^^ (b <<< 18) ^^^ (b <<< 14)

/-- sha512sig0h rd, rs1, rs2 (45_sha512.md R71). -/
def execSha512sig0h (rd rs1 rs2 : Reg) (s : State) : Host.Outcome State Fault Refusal :=
  s.issue (.sha512sig0h rd rs1 rs2) rd ((sha512sig0hResult (s.readWord rs1) (s.readWord rs2)).setWidth 64)

/-- sha512sig0l rd, rs1, rs2 (45_sha512.md R72). -/
def execSha512sig0l (rd rs1 rs2 : Reg) (s : State) : Host.Outcome State Fault Refusal :=
  s.issue (.sha512sig0l rd rs1 rs2) rd ((sha512sig0lResult (s.readWord rs1) (s.readWord rs2)).setWidth 64)

/-- sha512sig1h rd, rs1, rs2 (45_sha512.md R73). -/
def execSha512sig1h (rd rs1 rs2 : Reg) (s : State) : Host.Outcome State Fault Refusal :=
  s.issue (.sha512sig1h rd rs1 rs2) rd ((sha512sig1hResult (s.readWord rs1) (s.readWord rs2)).setWidth 64)

/-- sha512sig1l rd, rs1, rs2 (45_sha512.md R74). -/
def execSha512sig1l (rd rs1 rs2 : Reg) (s : State) : Host.Outcome State Fault Refusal :=
  s.issue (.sha512sig1l rd rs1 rs2) rd ((sha512sig1lResult (s.readWord rs1) (s.readWord rs2)).setWidth 64)

/-- sha512sum0r rd, rs1, rs2 (45_sha512.md R75). -/
def execSha512sum0r (rd rs1 rs2 : Reg) (s : State) : Host.Outcome State Fault Refusal :=
  s.issue (.sha512sum0r rd rs1 rs2) rd ((sha512sum0rResult (s.readWord rs1) (s.readWord rs2)).setWidth 64)

/-- sha512sum1r rd, rs1, rs2 (45_sha512.md R76). -/
def execSha512sum1r (rd rs1 rs2 : Reg) (s : State) : Host.Outcome State Fault Refusal :=
  s.issue (.sha512sum1r rd rs1 rs2) rd ((sha512sum1rResult (s.readWord rs1) (s.readWord rs2)).setWidth 64)

end Sys2Proof.Machine
end

