-- ==== Sys2Proof/Machine/Sm3.lean ====
section
/-!
DEFINITION. SM3 permutations (46_sm3.md R77, R78).
-/

namespace Sys2Proof.Machine

/-- P0 (46_sm3.md R77). -/
def sm3p0Result (v : Word) : Word := v ^^^ rol v 9 ^^^ rol v 17

/-- P1 (46_sm3.md R78). -/
def sm3p1Result (v : Word) : Word := v ^^^ rol v 15 ^^^ rol v 23

/-- sm3p0 rd, rs1 (46_sm3.md R77). -/
def execSm3p0 (rd rs1 : Reg) (s : State) : Host.Outcome State Fault Refusal :=
  s.issue (.sm3p0 rd rs1) rd (result32 s.xlen (sm3p0Result (s.readWord rs1)))

/-- sm3p1 rd, rs1 (46_sm3.md R78). -/
def execSm3p1 (rd rs1 : Reg) (s : State) : Host.Outcome State Fault Refusal :=
  s.issue (.sm3p1 rd rs1) rd (result32 s.xlen (sm3p1Result (s.readWord rs1)))

end Sys2Proof.Machine
end

