-- ==== Sys2Proof/Machine/Sm4.lean ====
section
/-!
DEFINITION. SM4 round function and key schedule (47_sm4.md R79, R80; 90_conflicts.md C2: the byte comes
from rs2 alone).
-/

namespace Sys2Proof.Machine

/-- sm4_L, the linear transform of the round (47_sm4.md section 1). -/
def sm4L (v : Word) : Word := v ^^^ rol v 2 ^^^ rol v 10 ^^^ rol v 18 ^^^ rol v 24

/-- sm4_Lk, the linear transform of the key schedule (47_sm4.md section 1). -/
def sm4Lk (v : Word) : Word := v ^^^ rol v 13 ^^^ rol v 23

/-- One byte of a round (47_sm4.md R79). -/
def sm4edResult (acc src : Word) (bs : BitVec 2) : Word :=
  slotted (fun sb => sm4L ((sm4Sbox sb).setWidth 32)) acc src bs

/-- One byte of a key-schedule round (47_sm4.md R80). -/
def sm4ksResult (acc src : Word) (bs : BitVec 2) : Word :=
  slotted (fun sb => sm4Lk ((sm4Sbox sb).setWidth 32)) acc src bs

/-- sm4ed rd, rs1, rs2, bs (47_sm4.md R79). -/
def execSm4ed (rd rs1 rs2 : Reg) (bs : BitVec 2) (s : State) : Host.Outcome State Fault Refusal :=
  s.issue (.sm4ed rd rs1 rs2 bs) rd (result32 s.xlen (sm4edResult (s.readWord rs1) (s.readWord rs2) bs))

/-- sm4ks rd, rs1, rs2, bs (47_sm4.md R80). -/
def execSm4ks (rd rs1 rs2 : Reg) (bs : BitVec 2) (s : State) : Host.Outcome State Fault Refusal :=
  s.issue (.sm4ks rd rs1 rs2 bs) rd (result32 s.xlen (sm4ksResult (s.readWord rs1) (s.readWord rs2) bs))

end Sys2Proof.Machine
end

