-- ==== Sys2Proof/Machine/Dispatch.lean ====
section
/-!
DEFINITION. One instruction: its meaning, one arm a constructor.
-/

namespace Sys2Proof.Machine

def exec (i : Instr) (s : State) : Host.Outcome State Fault Refusal :=
  match i with
  | .clmul rd rs1 rs2 => Sys2Proof.Machine.execClmul rd rs1 rs2 s
  | .clmulh rd rs1 rs2 => Sys2Proof.Machine.execClmulh rd rs1 rs2 s
  | .aes32esi rd rs1 rs2 bs => Sys2Proof.Machine.execAes32esi rd rs1 rs2 bs s
  | .aes32esmi rd rs1 rs2 bs => Sys2Proof.Machine.execAes32esmi rd rs1 rs2 bs s
  | .aes32dsi rd rs1 rs2 bs => Sys2Proof.Machine.execAes32dsi rd rs1 rs2 bs s
  | .aes32dsmi rd rs1 rs2 bs => Sys2Proof.Machine.execAes32dsmi rd rs1 rs2 bs s
  | .aes64es rd rs1 rs2 => Sys2Proof.Machine.execAes64es rd rs1 rs2 s
  | .aes64esm rd rs1 rs2 => Sys2Proof.Machine.execAes64esm rd rs1 rs2 s
  | .aes64ds rd rs1 rs2 => Sys2Proof.Machine.execAes64ds rd rs1 rs2 s
  | .aes64dsm rd rs1 rs2 => Sys2Proof.Machine.execAes64dsm rd rs1 rs2 s
  | .aes64im rd rs1 => Sys2Proof.Machine.execAes64im rd rs1 s
  | .aes64ks1i rd rs1 rnum => Sys2Proof.Machine.execAes64ks1i rd rs1 rnum s
  | .aes64ks2 rd rs1 rs2 => Sys2Proof.Machine.execAes64ks2 rd rs1 rs2 s
  | .sha256sig0 rd rs1 => Sys2Proof.Machine.execSha256sig0 rd rs1 s
  | .sha256sig1 rd rs1 => Sys2Proof.Machine.execSha256sig1 rd rs1 s
  | .sha256sum0 rd rs1 => Sys2Proof.Machine.execSha256sum0 rd rs1 s
  | .sha256sum1 rd rs1 => Sys2Proof.Machine.execSha256sum1 rd rs1 s
  | .sha512sig0 rd rs1 => Sys2Proof.Machine.execSha512sig0 rd rs1 s
  | .sha512sig1 rd rs1 => Sys2Proof.Machine.execSha512sig1 rd rs1 s
  | .sha512sum0 rd rs1 => Sys2Proof.Machine.execSha512sum0 rd rs1 s
  | .sha512sum1 rd rs1 => Sys2Proof.Machine.execSha512sum1 rd rs1 s
  | .sha512sig0h rd rs1 rs2 => Sys2Proof.Machine.execSha512sig0h rd rs1 rs2 s
  | .sha512sig0l rd rs1 rs2 => Sys2Proof.Machine.execSha512sig0l rd rs1 rs2 s
  | .sha512sig1h rd rs1 rs2 => Sys2Proof.Machine.execSha512sig1h rd rs1 rs2 s
  | .sha512sig1l rd rs1 rs2 => Sys2Proof.Machine.execSha512sig1l rd rs1 rs2 s
  | .sha512sum0r rd rs1 rs2 => Sys2Proof.Machine.execSha512sum0r rd rs1 rs2 s
  | .sha512sum1r rd rs1 rs2 => Sys2Proof.Machine.execSha512sum1r rd rs1 rs2 s
  | .sm3p0 rd rs1 => Sys2Proof.Machine.execSm3p0 rd rs1 s
  | .sm3p1 rd rs1 => Sys2Proof.Machine.execSm3p1 rd rs1 s
  | .sm4ed rd rs1 rs2 bs => Sys2Proof.Machine.execSm4ed rd rs1 rs2 bs s
  | .sm4ks rd rs1 rs2 bs => Sys2Proof.Machine.execSm4ks rd rs1 rs2 bs s

end Sys2Proof.Machine
end

