-- ==== Sys2Proof/Machine/Step.lean ====
section
/-!
DEFINITION. One step of the machine: fetch the word at the pc, decode it at the instance's XLEN, run it
(60_exceptions.md R84: the fetch's faults first, then IllegalInstruction; 70_reset_and_hazards.md R94:
one step an instruction).
-/

namespace Sys2Proof.Machine

/-- One step. -/
def step (s : State) : Host.Outcome State Fault Refusal :=
  match s.fetchWord with
  | .error f => .fault f
  | .ok w =>
    match decode s.xlen w with
    | .instr i => exec i s
    | .illegal bits => .next (s.raiseIllegal bits)
    | .notThisBlock bits => .refused (.notThisBlock bits)

/-- The state with the instruction whose bits are w (numbered as spec/opcode_table.json numbers them;
the bits above nbits zero) stored at the pc, little-endian. It stands for a program loaded from outside
the machine (notes/assumptions/13.md). -/
def State.withFetchWord (s : State) (nbits w : Nat) : State :=
  s.memWrite s.readPc 4 (BitVec.ofNat 64 (w % 2 ^ nbits))

end Sys2Proof.Machine
end

