-- ==== Sys2Proof/Machine/FunctionalUnit.lean ====
section
/-!
DEFINITION. The block as a combinational functional unit with the ports of 10_state.md R17. The
instructions' meanings call the same result functions; that the two agree is a statement
(Certificates/Slice0).
-/

namespace Sys2Proof.Machine

/-- The input ports (10_state.md R17). `b` is ignored by single-source operations, `bs` and `rnum` by
operations without the field. -/
structure UnitInput where
  op : Op
  xlen : Xlen
  a : XWord
  b : XWord
  bs : BitVec 2
  rnum : BitVec 4
  deriving DecidableEq, Repr

/-- The value of port `result` when port `illegal` is 0. -/
def unitResult (u : UnitInput) : XWord :=
  match u.op with
  | .clmul => clmulResult u.xlen u.a u.b
  | .clmulh => clmulhResult u.xlen u.a u.b
  | .aes32esi => (aes32esiResult (lowWord u.a) (lowWord u.b) u.bs).setWidth 64
  | .aes32esmi => (aes32esmiResult (lowWord u.a) (lowWord u.b) u.bs).setWidth 64
  | .aes32dsi => (aes32dsiResult (lowWord u.a) (lowWord u.b) u.bs).setWidth 64
  | .aes32dsmi => (aes32dsmiResult (lowWord u.a) (lowWord u.b) u.bs).setWidth 64
  | .aes64es => aes64esResult u.a u.b
  | .aes64esm => aes64esmResult u.a u.b
  | .aes64ds => aes64dsResult u.a u.b
  | .aes64dsm => aes64dsmResult u.a u.b
  | .aes64im => aes64imResult u.a
  | .aes64ks1i => aes64ks1iResult u.a u.rnum
  | .aes64ks2 => aes64ks2Result u.a u.b
  | .sha256sig0 => result32 u.xlen (sha256sig0Result (lowWord u.a))
  | .sha256sig1 => result32 u.xlen (sha256sig1Result (lowWord u.a))
  | .sha256sum0 => result32 u.xlen (sha256sum0Result (lowWord u.a))
  | .sha256sum1 => result32 u.xlen (sha256sum1Result (lowWord u.a))
  | .sha512sig0 => sha512sig0Result u.a
  | .sha512sig1 => sha512sig1Result u.a
  | .sha512sum0 => sha512sum0Result u.a
  | .sha512sum1 => sha512sum1Result u.a
  | .sha512sig0h => (sha512sig0hResult (lowWord u.a) (lowWord u.b)).setWidth 64
  | .sha512sig0l => (sha512sig0lResult (lowWord u.a) (lowWord u.b)).setWidth 64
  | .sha512sig1h => (sha512sig1hResult (lowWord u.a) (lowWord u.b)).setWidth 64
  | .sha512sig1l => (sha512sig1lResult (lowWord u.a) (lowWord u.b)).setWidth 64
  | .sha512sum0r => (sha512sum0rResult (lowWord u.a) (lowWord u.b)).setWidth 64
  | .sha512sum1r => (sha512sum1rResult (lowWord u.a) (lowWord u.b)).setWidth 64
  | .sm3p0 => result32 u.xlen (sm3p0Result (lowWord u.a))
  | .sm3p1 => result32 u.xlen (sm3p1Result (lowWord u.a))
  | .sm4ed => result32 u.xlen (sm4edResult (lowWord u.a) (lowWord u.b) u.bs)
  | .sm4ks => result32 u.xlen (sm4ksResult (lowWord u.a) (lowWord u.b) u.bs)

/-- The unit: `none` is port `illegal` = 1 (`result` is then not written), `some v` is `illegal` = 0
with v on port `result` (10_state.md R17). -/
def blockUnit (u : UnitInput) : Option XWord :=
  if opLegal u.xlen u.op u.rnum then some (unitResult u) else none

end Sys2Proof.Machine
end

