-- ==== Sys2Proof/Safety.lean ====
section
/-!
DEFINITION. The terms claims are stated in: what a well-formed state is, what it means that an instruction
completes with a value or raises IllegalInstruction (each with its whole frame), and how an instruction
drives the functional unit's ports. Where the spec gives a formula, it is written out here and in the
statements, not taken from the meanings.
-/

namespace Sys2Proof.Machine

/-- The number XLEN. -/
def xlenBits : Xlen → Nat
  | .rv32 => 32
  | .rv64 => 64

/-- A value has only its low XLEN bits set. -/
def FitsXlen (x : Xlen) (v : XWord) : Prop := v.toNat < 2 ^ xlenBits x

/-- An address is 4-byte aligned (20_memory.md R23). -/
def Aligned4 (v : XWord) : Prop := v.toNat % 4 = 0

/-- What x[rd] gets from a 32-bit result (00_scope.md R10). -/
def wordResult (x : Xlen) (r : Word) : XWord :=
  if x = .rv32 then r.setWidth 64 else r.signExtend 64

/-! ### Well-formed states -/

/-- What every step keeps: x[0] is 0, every XLEN-bit register is XLEN bits wide, the pc and every
address it can be set from is 4-byte aligned, the modes are modes the host has, and memory is in its
canonical form. -/
structure State.WF (s : State) : Prop where
  x_zero : s.x[0] = 0
  x_fits : ∀ r : Fin 32, FitsXlen s.xlen s.x[r]
  pc_fits : FitsXlen s.xlen s.pc
  pc_aligned : Aligned4 s.pc
  mode_has : s.hostModes.has s.mode = true
  mpp_has : s.hostModes.has s.mstatus.mpp = true
  spp_not_m : s.sstatus.spp ≠ .m
  mepc_fits : FitsXlen s.xlen s.mepc
  mepc_aligned : Aligned4 s.mepc
  mcause_fits : FitsXlen s.xlen s.mcause
  mtval_fits : FitsXlen s.xlen s.mtval
  mtvec_fits : FitsXlen s.xlen s.mtvec.base
  mtvec_aligned : Aligned4 s.mtvec.base
  sepc_fits : FitsXlen s.xlen s.sepc
  sepc_aligned : Aligned4 s.sepc
  scause_fits : FitsXlen s.xlen s.scause
  stval_fits : FitsXlen s.xlen s.stval
  stvec_fits : FitsXlen s.xlen s.stvec.base
  stvec_aligned : Aligned4 s.stvec.base
  mem_wf : Memory.wf s.mem = true
  mem_fits : ∀ c ∈ s.mem, c.1 < 2 ^ xlenBits s.xlen

/-- Host parameters a host can have: an aligned XLEN-bit reset pc and trap vector. -/
structure HostParamsOk (p : HostParams) : Prop where
  resetPc_fits : FitsXlen p.xlen p.resetPc
  resetPc_aligned : Aligned4 p.resetPc
  mtvec_fits : FitsXlen p.xlen p.mtvec.base
  mtvec_aligned : Aligned4 p.mtvec.base

/-! ### Frames -/

/-- The host parameters, the vectors and the delegation register are as before. -/
structure SameHost (s t : State) : Prop where
  xlen : t.xlen = s.xlen
  hostModes : t.hostModes = s.hostModes
  tvalIllegalBits : t.tvalIllegalBits = s.tvalIllegalBits
  mtvec : t.mtvec = s.mtvec
  stvec : t.stvec = s.stvec
  medeleg : t.medeleg = s.medeleg

/-- The registers of trap entry into M-mode are as before. -/
structure SameMTrap (s t : State) : Prop where
  mstatus : t.mstatus = s.mstatus
  mepc : t.mepc = s.mepc
  mcause : t.mcause = s.mcause
  mtval : t.mtval = s.mtval

/-- The registers of trap entry into S-mode are as before. -/
structure SameSTrap (s t : State) : Prop where
  sstatus : t.sstatus = s.sstatus
  sepc : t.sepc = s.sepc
  scause : t.scause = s.scause
  stval : t.stval = s.stval

/-- Every register reads as before. -/
def SameRegs (s t : State) : Prop := ∀ r : Reg, t.readReg r = s.readReg r

/-- Every byte of memory reads as before. -/
def SameMem (s t : State) : Prop := ∀ a : XWord, t.readByte a = s.readByte a

/-! ### Completing -/

/-- t is s after an instruction of the block completed with value v for rd: x[rd] is v (nothing when rd
is 0), every other register as before, pc + 4 modulo 2^XLEN, one more instruction retired, and nothing
else changed (10_state.md R15, R16; 20_memory.md R19; 60_exceptions.md R89). -/
structure RetiredInto (s : State) (rd : Reg) (v : XWord) (t : State) : Prop where
  regs : ∀ r : Reg, t.readReg r = if r = rd ∧ r ≠ 0#5 then v else s.readReg r
  pc : t.readPc.toNat = (s.readPc.toNat + 4) % 2 ^ xlenBits s.xlen
  minstret : t.minstret = s.minstret + 1
  mode : t.mode = s.mode
  host : SameHost s t
  mTrap : SameMTrap s t
  sTrap : SameSTrap s t
  mem : SameMem s t

/-- The instruction answers a next state, in which it completed with value v for rd. -/
def CompletesWith (i : Instr) (s : State) (rd : Reg) (v : XWord) : Prop :=
  ∃ t, exec i s = .next t ∧ RetiredInto s rd v t

/-! ### Raising IllegalInstruction -/

/-- The trap value of IllegalInstruction, the word zero-extended or 0 (60_exceptions.md R81;
notes/assumptions/6.md). -/
def illegalTval (s : State) (bits : Word) : XWord := if s.tvalIllegalBits then bits.setWidth 64 else 0#64

/-- A trap value register that holds the word, or 0 by HOST_TVAL_ILLEGAL_BITS (60_exceptions.md R81). The
bits above the word at XLEN 64 are `illegalTval`'s (notes/assumptions/6.md). -/
def TvalHolds (s : State) (bits : Word) (tval : XWord) : Prop :=
  if s.tvalIllegalBits then tval.setWidth 32 = bits else tval = 0

/-- The trap enters S-mode (60_exceptions.md R85). -/
def IllegalGoesToS (s : State) : Prop :=
  s.hostModes.hasS = true ∧ s.medeleg.getLsbD 2 = true ∧ (s.mode = .s ∨ s.mode = .u)

/-- What entry into M-mode writes (60_exceptions.md R85). -/
structure EnteredM (s : State) (bits : Word) (t : State) : Prop where
  mepc : t.mepc = s.readPc
  mcause : t.mcause = 2
  mtval : TvalHolds s bits t.mtval
  mpp : t.mstatus.mpp = s.mode
  mpie : t.mstatus.mpie = s.mstatus.mie
  mie : t.mstatus.mie = false
  mode : t.mode = .m
  pc : t.readPc = truncX s.xlen s.mtvec.base
  sTrap : SameSTrap s t

/-- What entry into S-mode writes (60_exceptions.md R85). -/
structure EnteredS (s : State) (bits : Word) (t : State) : Prop where
  sepc : t.sepc = s.readPc
  scause : t.scause = 2
  stval : TvalHolds s bits t.stval
  spp : t.sstatus.spp = s.mode
  spie : t.sstatus.spie = s.sstatus.sie
  sie : t.sstatus.sie = false
  mode : t.mode = .s
  pc : t.readPc = truncX s.xlen s.stvec.base
  mTrap : SameMTrap s t

/-- t is s after IllegalInstruction was raised for a word: one of the two entries, no register written,
nothing retired, no memory changed (60_exceptions.md R81, R85, R89). -/
structure TookIllegal (s : State) (bits : Word) (t : State) : Prop where
  toS : IllegalGoesToS s → EnteredS s bits t
  toM : ¬ IllegalGoesToS s → EnteredM s bits t
  regs : SameRegs s t
  minstret : t.minstret = s.minstret
  host : SameHost s t
  mem : SameMem s t

/-- The instruction answers a next state, in which IllegalInstruction was taken with its word. -/
def RaisesIllegal (i : Instr) (s : State) : Prop :=
  ∃ t, exec i s = .next t ∧ TookIllegal s (encode i) t

/-! ### Instructions and their ports -/

/-- The destination register number. -/
def destReg : Instr → Reg
  | .clmul rd _ _ | .clmulh rd _ _ => rd
  | .aes32esi rd _ _ _ | .aes32esmi rd _ _ _ | .aes32dsi rd _ _ _ | .aes32dsmi rd _ _ _ => rd
  | .aes64es rd _ _ | .aes64esm rd _ _ | .aes64ds rd _ _ | .aes64dsm rd _ _ => rd
  | .aes64im rd _ | .aes64ks1i rd _ _ | .aes64ks2 rd _ _ => rd
  | .sha256sig0 rd _ | .sha256sig1 rd _ | .sha256sum0 rd _ | .sha256sum1 rd _ => rd
  | .sha512sig0 rd _ | .sha512sig1 rd _ | .sha512sum0 rd _ | .sha512sum1 rd _ => rd
  | .sha512sig0h rd _ _ | .sha512sig0l rd _ _ | .sha512sig1h rd _ _ | .sha512sig1l rd _ _ => rd
  | .sha512sum0r rd _ _ | .sha512sum1r rd _ _ => rd
  | .sm3p0 rd _ | .sm3p1 rd _ => rd
  | .sm4ed rd _ _ _ | .sm4ks rd _ _ _ => rd

/-- The source register numbers, rs1 then rs2 where the format has one (10_state.md R15). -/
def sourceRegs : Instr → List Reg
  | .clmul _ rs1 rs2 | .clmulh _ rs1 rs2 => [rs1, rs2]
  | .aes32esi _ rs1 rs2 _ | .aes32esmi _ rs1 rs2 _ => [rs1, rs2]
  | .aes32dsi _ rs1 rs2 _ | .aes32dsmi _ rs1 rs2 _ => [rs1, rs2]
  | .aes64es _ rs1 rs2 | .aes64esm _ rs1 rs2 | .aes64ds _ rs1 rs2 | .aes64dsm _ rs1 rs2 => [rs1, rs2]
  | .aes64im _ rs1 | .aes64ks1i _ rs1 _ => [rs1]
  | .aes64ks2 _ rs1 rs2 => [rs1, rs2]
  | .sha256sig0 _ rs1 | .sha256sig1 _ rs1 | .sha256sum0 _ rs1 | .sha256sum1 _ rs1 => [rs1]
  | .sha512sig0 _ rs1 | .sha512sig1 _ rs1 | .sha512sum0 _ rs1 | .sha512sum1 _ rs1 => [rs1]
  | .sha512sig0h _ rs1 rs2 | .sha512sig0l _ rs1 rs2 => [rs1, rs2]
  | .sha512sig1h _ rs1 rs2 | .sha512sig1l _ rs1 rs2 => [rs1, rs2]
  | .sha512sum0r _ rs1 rs2 | .sha512sum1r _ rs1 rs2 => [rs1, rs2]
  | .sm3p0 _ rs1 | .sm3p1 _ rs1 => [rs1]
  | .sm4ed _ rs1 rs2 _ | .sm4ks _ rs1 rs2 _ => [rs1, rs2]

/-- The byte-slot field, where the format has one (30_encoding.md R28). -/
def slotField : Instr → Option (BitVec 2)
  | .aes32esi _ _ _ bs | .aes32esmi _ _ _ bs | .aes32dsi _ _ _ bs | .aes32dsmi _ _ _ bs => some bs
  | .sm4ed _ _ _ bs | .sm4ks _ _ _ bs => some bs
  | .clmul _ _ _ | .clmulh _ _ _ => none
  | .aes64es _ _ _ | .aes64esm _ _ _ | .aes64ds _ _ _ | .aes64dsm _ _ _ => none
  | .aes64im _ _ | .aes64ks1i _ _ _ | .aes64ks2 _ _ _ => none
  | .sha256sig0 _ _ | .sha256sig1 _ _ | .sha256sum0 _ _ | .sha256sum1 _ _ => none
  | .sha512sig0 _ _ | .sha512sig1 _ _ | .sha512sum0 _ _ | .sha512sum1 _ _ => none
  | .sha512sig0h _ _ _ | .sha512sig0l _ _ _ | .sha512sig1h _ _ _ | .sha512sig1l _ _ _ => none
  | .sha512sum0r _ _ _ | .sha512sum1r _ _ _ => none
  | .sm3p0 _ _ | .sm3p1 _ _ => none

/-- The round field, of aes64ks1i only (30_encoding.md R30). -/
def roundField : Instr → Option (BitVec 4)
  | .aes64ks1i _ _ rnum => some rnum
  | .clmul _ _ _ | .clmulh _ _ _ => none
  | .aes32esi _ _ _ _ | .aes32esmi _ _ _ _ | .aes32dsi _ _ _ _ | .aes32dsmi _ _ _ _ => none
  | .aes64es _ _ _ | .aes64esm _ _ _ | .aes64ds _ _ _ | .aes64dsm _ _ _ => none
  | .aes64im _ _ | .aes64ks2 _ _ _ => none
  | .sha256sig0 _ _ | .sha256sig1 _ _ | .sha256sum0 _ _ | .sha256sum1 _ _ => none
  | .sha512sig0 _ _ | .sha512sig1 _ _ | .sha512sum0 _ _ | .sha512sum1 _ _ => none
  | .sha512sig0h _ _ _ | .sha512sig0l _ _ _ | .sha512sig1h _ _ _ | .sha512sig1l _ _ _ => none
  | .sha512sum0r _ _ _ | .sha512sum1r _ _ _ => none
  | .sm3p0 _ _ | .sm3p1 _ _ => none
  | .sm4ed _ _ _ _ | .sm4ks _ _ _ _ => none

/-- The unit's inputs are those of the instruction in the state: op, xlen, the source registers, and the
selector the format has; a port the operation ignores may carry anything (10_state.md R17). -/
structure DrivesPorts (i : Instr) (s : State) (u : UnitInput) : Prop where
  op : u.op = i.op
  xlen : u.xlen = s.xlen
  a : ∀ r, (sourceRegs i)[0]? = some r → u.a = s.readReg r
  b : ∀ r, (sourceRegs i)[1]? = some r → u.b = s.readReg r
  bs : ∀ v, slotField i = some v → u.bs = v
  rnum : ∀ v, roundField i = some v → u.rnum = v

/-! ### Encodings -/

/-- The word has the row's fixed bits and the fields of format R (30_encoding.md R27). -/
def HasFormatR (i : Instr) (mtch : Word) (rd rs1 rs2 : Reg) : Prop :=
  encode i &&& 0xFE00707F = mtch ∧ (encode i).extractLsb' 7 5 = rd ∧
    (encode i).extractLsb' 15 5 = rs1 ∧ (encode i).extractLsb' 20 5 = rs2 ∧
    (encode i).extractLsb' 0 7 = 0b0110011

/-- The word has the row's fixed bits and the fields of format R-bs (30_encoding.md R28). -/
def HasFormatRbs (i : Instr) (mtch : Word) (rd rs1 rs2 : Reg) (bs : BitVec 2) : Prop :=
  encode i &&& 0x3E00707F = mtch ∧ (encode i).extractLsb' 7 5 = rd ∧
    (encode i).extractLsb' 15 5 = rs1 ∧ (encode i).extractLsb' 20 5 = rs2 ∧
    (encode i).extractLsb' 30 2 = bs ∧ (encode i).extractLsb' 12 3 = 0b000 ∧
    (encode i).extractLsb' 0 7 = 0b0110011

/-- The word has the row's fixed bits and the fields of format I-unary (30_encoding.md R29). -/
def HasFormatIunary (i : Instr) (mtch : Word) (rd rs1 : Reg) : Prop :=
  encode i &&& 0xFFF0707F = mtch ∧ (encode i).extractLsb' 7 5 = rd ∧
    (encode i).extractLsb' 15 5 = rs1 ∧ (encode i).extractLsb' 12 3 = 0b001 ∧
    (encode i).extractLsb' 0 7 = 0b0010011

/-- The word has the row's fixed bits and the fields of format I-rnum (30_encoding.md R30). -/
def HasFormatIrnum (i : Instr) (mtch : Word) (rd rs1 : Reg) (rnum : BitVec 4) : Prop :=
  encode i &&& 0xFF00707F = mtch ∧ (encode i).extractLsb' 7 5 = rd ∧
    (encode i).extractLsb' 15 5 = rs1 ∧ (encode i).extractLsb' 20 4 = rnum ∧
    (encode i).extractLsb' 24 8 = 0b00110001 ∧ (encode i).extractLsb' 12 3 = 0b001 ∧
    (encode i).extractLsb' 0 7 = 0b0010011

end Sys2Proof.Machine
end

