-- ==== Sys2Proof/Certificates/Slice0/Obligations.lean ====
section
/-!
DEFINITION. The statements for the provers. Each names the rule of spec/ it formalises; OBLIGATIONS.json
holds their titles and quotes. Formulas are written out here from the spec with the library's rotations
and shifts; the meanings are tied to them through `CompletesWith` and `RaisesIllegal` (Safety.lean), which
say the whole frame.
-/

open Sys2Proof Sys2Proof.Machine

/-! ## Encoding (30_encoding.md) -/

/-- R33, R34 with R81: the word of an instruction decodes to that instruction with every field, where it
is well formed at the XLEN, and else to IllegalInstruction with the word. -/
def Obligations.DecodeOfEncodeIsTheInstruction : Prop :=
  ∀ (x : Xlen) (i : Instr),
    decode x (encode i) = if i.wellFormed x then .instr i else .illegal (encode i)

/-- R33, R34: every 32-bit word either is the word of an instruction, and decodes by it, or is the word of
none, and is NotThisBlock. -/
def Obligations.EveryWordIsAnInstructionsWordOrNotThisBlock : Prop :=
  ∀ (x : Xlen) (w : Word),
    (∃ i, encode i = w ∧ decode x w = if i.wellFormed x then .instr i else .illegal w) ∨
    ((∀ i, encode i ≠ w) ∧ decode x w = .notThisBlock w)

/-- R32: the map has 31 rows of 31 operations, and no word selects two of them. -/
def Obligations.OpcodeMapRowsShareNoWord : Prop :=
  opcodeRows.length = 31 ∧ (opcodeRows.map (·.op)).Nodup ∧
  ∀ r ∈ opcodeRows, ∀ q ∈ opcodeRows, ∀ w : Word, r.selects w = true → q.selects w = true → r = q

/-- R33: the decoding algorithm, any selecting row deciding, with the fields it reads. -/
def Obligations.DecodeFollowsTheOpcodeMap : Prop :=
  ∀ (x : Xlen) (w : Word),
    (∀ r ∈ opcodeRows, w &&& r.mask = r.mtch →
      (decode x w =
        if opExistsAt x r.op = false then .illegal w
        else if r.op = .aes64ks1i ∧ (w.extractLsb' 20 4).toNat > 0xA then .illegal w
        else .instr (instrOf r.op w)) ∧
      (instrOf r.op w).op = r.op ∧
      destReg (instrOf r.op w) = w.extractLsb' 7 5 ∧
      (sourceRegs (instrOf r.op w))[0]? = some (w.extractLsb' 15 5) ∧
      (∀ q, (sourceRegs (instrOf r.op w))[1]? = some q → q = w.extractLsb' 20 5) ∧
      (∀ v, slotField (instrOf r.op w) = some v → v = w.extractLsb' 30 2) ∧
      (∀ v, roundField (instrOf r.op w) = some v → v = w.extractLsb' 20 4)) ∧
    ((∀ r ∈ opcodeRows, w &&& r.mask ≠ r.mtch) → decode x w = .notThisBlock w)

/-- R27 to R30, with the match column of R32: the word of every instruction has its row's fixed bits and
its format's fields in their places. -/
def Obligations.InstructionWordsHaveTheirFormats : Prop :=
  ∀ (rd rs1 rs2 : Reg) (bs : BitVec 2) (rnum : BitVec 4),
    HasFormatR (.clmul rd rs1 rs2) 0x0A001033 rd rs1 rs2 ∧
    HasFormatR (.clmulh rd rs1 rs2) 0x0A003033 rd rs1 rs2 ∧
    HasFormatRbs (.aes32esi rd rs1 rs2 bs) 0x22000033 rd rs1 rs2 bs ∧
    HasFormatRbs (.aes32esmi rd rs1 rs2 bs) 0x26000033 rd rs1 rs2 bs ∧
    HasFormatRbs (.aes32dsi rd rs1 rs2 bs) 0x2A000033 rd rs1 rs2 bs ∧
    HasFormatRbs (.aes32dsmi rd rs1 rs2 bs) 0x2E000033 rd rs1 rs2 bs ∧
    HasFormatR (.aes64es rd rs1 rs2) 0x32000033 rd rs1 rs2 ∧
    HasFormatR (.aes64esm rd rs1 rs2) 0x36000033 rd rs1 rs2 ∧
    HasFormatR (.aes64ds rd rs1 rs2) 0x3A000033 rd rs1 rs2 ∧
    HasFormatR (.aes64dsm rd rs1 rs2) 0x3E000033 rd rs1 rs2 ∧
    HasFormatIunary (.aes64im rd rs1) 0x30001013 rd rs1 ∧
    HasFormatIrnum (.aes64ks1i rd rs1 rnum) 0x31001013 rd rs1 rnum ∧
    HasFormatR (.aes64ks2 rd rs1 rs2) 0x7E000033 rd rs1 rs2 ∧
    HasFormatIunary (.sha256sig0 rd rs1) 0x10201013 rd rs1 ∧
    HasFormatIunary (.sha256sig1 rd rs1) 0x10301013 rd rs1 ∧
    HasFormatIunary (.sha256sum0 rd rs1) 0x10001013 rd rs1 ∧
    HasFormatIunary (.sha256sum1 rd rs1) 0x10101013 rd rs1 ∧
    HasFormatIunary (.sha512sig0 rd rs1) 0x10601013 rd rs1 ∧
    HasFormatIunary (.sha512sig1 rd rs1) 0x10701013 rd rs1 ∧
    HasFormatIunary (.sha512sum0 rd rs1) 0x10401013 rd rs1 ∧
    HasFormatIunary (.sha512sum1 rd rs1) 0x10501013 rd rs1 ∧
    HasFormatR (.sha512sig0h rd rs1 rs2) 0x5C000033 rd rs1 rs2 ∧
    HasFormatR (.sha512sig0l rd rs1 rs2) 0x54000033 rd rs1 rs2 ∧
    HasFormatR (.sha512sig1h rd rs1 rs2) 0x5E000033 rd rs1 rs2 ∧
    HasFormatR (.sha512sig1l rd rs1 rs2) 0x56000033 rd rs1 rs2 ∧
    HasFormatR (.sha512sum0r rd rs1 rs2) 0x50000033 rd rs1 rs2 ∧
    HasFormatR (.sha512sum1r rd rs1 rs2) 0x52000033 rd rs1 rs2 ∧
    HasFormatIunary (.sm3p0 rd rs1) 0x10801013 rd rs1 ∧
    HasFormatIunary (.sm3p1 rd rs1) 0x10901013 rd rs1 ∧
    HasFormatRbs (.sm4ed rd rs1 rs2 bs) 0x30000033 rd rs1 rs2 bs ∧
    HasFormatRbs (.sm4ks rd rs1 rs2 bs) 0x34000033 rd rs1 rs2 bs

/-- 95_test_vectors.md V107 to V128 and 30_encoding.md R35: words written out from the spec decode as it
says, at each XLEN. -/
def Obligations.SpecWordsDecodeAsListed : Prop :=
  decode .rv32 0x0AC59533 = .instr (.clmul 10 11 12) ∧
  decode .rv64 0x0AC59533 = .instr (.clmul 10 11 12) ∧
  decode .rv32 0xE2C58533 = .instr (.aes32esi 10 11 12 3) ∧
  decode .rv64 0xE2C58533 = .illegal 0xE2C58533 ∧
  decode .rv32 0x32C58533 = .illegal 0x32C58533 ∧
  decode .rv64 0x32C58533 = .instr (.aes64es 10 11 12) ∧
  decode .rv64 0x31A59513 = .instr (.aes64ks1i 10 11 10) ∧
  decode .rv64 0x31B59513 = .illegal 0x31B59513 ∧
  decode .rv32 0x31F59513 = .illegal 0x31F59513 ∧
  decode .rv32 0x10259513 = .instr (.sha256sig0 10 11) ∧
  decode .rv64 0x10659513 = .instr (.sha512sig0 10 11) ∧
  decode .rv32 0x5CC58533 = .instr (.sha512sig0h 10 11 12) ∧
  decode .rv64 0x10859513 = .instr (.sm3p0 10 11) ∧
  decode .rv32 0xF4C58533 = .instr (.sm4ks 10 11 12 3) ∧
  decode .rv64 0x30159513 = .notThisBlock 0x30159513 ∧
  decode .rv32 0x10A59513 = .notThisBlock 0x10A59513 ∧
  decode .rv64 0x0AC5A533 = .notThisBlock 0x0AC5A533 ∧
  decode .rv32 0x00C58533 = .notThisBlock 0x00C58533

/-! ## The machine: steps, exceptions, reset, invariants -/

/-- A step at a word that decodes to an instruction runs that instruction, and adds nothing around it: the
pc's advance is the instruction's own (10_state.md R16). -/
def Obligations.StepRunsTheDecodedInstruction : Prop :=
  ∀ (s : State) (w : Word) (i : Instr),
    s.fetchWord = .ok w → decode s.xlen w = .instr i → step s = exec i s

/-- A step at a word that is illegal at the XLEN takes IllegalInstruction with the word (R81, R85); a step
at a word outside the block is refused by name (R33, R34; the refusal is the model's, notes/assumptions/5.md). -/
def Obligations.StepAtOtherWordsTrapsOrIsRefused : Prop :=
  ∀ (s : State) (w : Word), s.fetchWord = .ok w →
    (decode s.xlen w = .illegal w → ∃ t, step s = .next t ∧ TookIllegal s w t) ∧
    (decode s.xlen w = .notThisBlock w → step s = .refused (.notThisBlock w))

/-- R23: the word at an aligned pc is its four bytes, little-endian, at pc to pc + 3. -/
def Obligations.FetchReadsFourLittleEndianBytes : Prop :=
  ∀ (s : State) (b0 b1 b2 b3 : Byte), Aligned4 s.readPc →
    s.readByte s.readPc = some b0 → s.readByte (s.readPc + 1) = some b1 →
    s.readByte (s.readPc + 2) = some b2 → s.readByte (s.readPc + 3) = some b3 →
    ∃ w, s.fetchWord = .ok w ∧
      w.toNat = b0.toNat + b1.toNat * 2 ^ 8 + b2.toNat * 2 ^ 16 + b3.toNat * 2 ^ 24

/-- R84 with R82: a fetch that fails stops the step before any word is seen, so no exception of the block
is taken. Which faults they are is the model's choice (notes/assumptions/10.md). -/
def Obligations.FailedFetchStopsTheStep : Prop :=
  ∀ s : State,
    (¬ Aligned4 s.readPc → step s = .fault (.fetchMisaligned s.readPc)) ∧
    (Aligned4 s.readPc →
      (s.readByte s.readPc = none ∨ s.readByte (s.readPc + 1) = none ∨
        s.readByte (s.readPc + 2) = none ∨ s.readByte (s.readPc + 3) = none) →
      step s = .fault (.fetchUnwritten s.readPc))

/-- A word placed at an aligned pc is the word the next step fetches and runs, whether it completes or
raises IllegalInstruction. The load it stands for is the model's (notes/assumptions/13.md). -/
def Obligations.PlacedInstructionIsFetchedAndRun : Prop :=
  ∀ (s : State) (i : Instr), Aligned4 s.readPc →
    (s.withFetchWord 32 (encode i).toNat).fetchWord = .ok (encode i) ∧
    step (s.withFetchWord 32 (encode i).toNat) = exec i (s.withFetchWord 32 (encode i).toNat)

/-- R81 with the trap entry of R85: an instruction of the table completes when it is well formed at the
XLEN, and raises IllegalInstruction in exactly the other cases, (a) and (b), entering M-mode or S-mode. -/
def Obligations.IllegalInstructionIsRaisedInExactlyTheListedCases : Prop :=
  ∀ (i : Instr) (s : State),
    (i.wellFormed s.xlen = true → ∃ v, CompletesWith i s (destReg i) v) ∧
    (i.wellFormed s.xlen = false → RaisesIllegal i s)

/-- R82, R94: a step that goes on either completed one instruction, with the whole frame of completing, or
took one IllegalInstruction for the fetched word. Nothing else changes a state. -/
def Obligations.EveryStepCompletesOneInstructionOrTakesIllegal : Prop :=
  ∀ s t : State, step s = .next t →
    ∃ w, s.fetchWord = .ok w ∧
      ((∃ i v, encode i = w ∧ i.wellFormed s.xlen = true ∧ RetiredInto s (destReg i) v t) ∨
       (∃ i, encode i = w ∧ i.wellFormed s.xlen = false ∧ TookIllegal s w t))

/-- The well-formed states are closed under every step: x[0] stays 0, values stay XLEN bits wide, the pc
stays aligned, the modes stay modes the host has, memory stays in its canonical form. -/
def Obligations.EveryStepKeepsWellFormedStates : Prop :=
  ∀ s t : State, s.WF → step s = .next t → t.WF

/-- Reset with any host parameters of the right form, and the model's own reset state, are well formed.
Reset values the spec does not give are the model's choice (notes/assumptions/1.md, 2.md, 3.md). -/
def Obligations.ResetStatesAreWellFormed : Prop :=
  (∀ p : HostParams, HostParamsOk p → (State.resetWith p).WF) ∧ State.reset.WF

/-- R18, R90: what reset leaves, for every value of the host's parameters: x[0] is 0, the mode is M,
mstatus.MIE is 0, the pc is HOST_RESET_PC. The values the spec leaves open are not stated. -/
def Obligations.ResetLeavesTheSpecsValues : Prop :=
  ∀ p : HostParams,
    (State.resetWith p).xlen = p.xlen ∧ (State.resetWith p).readReg 0 = 0 ∧
    (State.resetWith p).mode = .m ∧ (State.resetWith p).mstatus.mie = false ∧
    (State.resetWith p).pc = p.resetPc ∧ (State.resetWith p).mtvec = p.mtvec

/-- R81 with the model's reading of a 64-bit trap value register (notes/assumptions/6.md): the word stands
there zero-extended. -/
def Obligations.TrapValueIsTheWordZeroExtended : Prop :=
  ∀ (s : State) (w : Word),
    (¬ IllegalGoesToS s → (s.raiseIllegal w).mtval = if s.tvalIllegalBits then w.setWidth 64 else 0) ∧
    (IllegalGoesToS s → (s.raiseIllegal w).stval = if s.tvalIllegalBits then w.setWidth 64 else 0)

/-- R86: mret and sret restore the mode and the interrupt enable and set the pc. That they change nothing
else is the model's reading (notes/assumptions/9.md). -/
def Obligations.TrapReturnRestoresModeEnableAndPc : Prop :=
  ∀ s : State,
    (s.returnM.mode = s.mstatus.mpp ∧ s.returnM.mstatus.mie = s.mstatus.mpie ∧
      s.returnM.readPc = truncX s.xlen s.mepc ∧ s.returnM.mstatus.mpie = s.mstatus.mpie ∧
      s.returnM.mstatus.mpp = s.mstatus.mpp ∧ s.returnM.mepc = s.mepc ∧ s.returnM.mcause = s.mcause ∧
      s.returnM.mtval = s.mtval ∧ s.returnM.minstret = s.minstret ∧
      SameSTrap s s.returnM ∧ SameHost s s.returnM ∧ SameRegs s s.returnM ∧ SameMem s s.returnM) ∧
    (s.returnS.mode = s.sstatus.spp ∧ s.returnS.sstatus.sie = s.sstatus.spie ∧
      s.returnS.readPc = truncX s.xlen s.sepc ∧ s.returnS.sstatus.spie = s.sstatus.spie ∧
      s.returnS.sstatus.spp = s.sstatus.spp ∧ s.returnS.sepc = s.sepc ∧ s.returnS.scause = s.scause ∧
      s.returnS.stval = s.stval ∧ s.returnS.minstret = s.minstret ∧
      SameMTrap s s.returnS ∧ SameHost s s.returnS ∧ SameRegs s s.returnS ∧ SameMem s s.returnS)

/-- R85 with R86: returning from the trap of an illegal word gives back the mode, the interrupt enable,
the pc, every register and all of memory. R86 names the mode, the enable and the pc; that the return leaves
registers, memory and host parameters as they were is the model's reading (notes/assumptions/9.md). -/
def Obligations.ReturnUndoesIllegalTrapEntry : Prop :=
  ∀ (s : State) (w : Word),
    (¬ IllegalGoesToS s →
      (s.raiseIllegal w).returnM.mode = s.mode ∧ (s.raiseIllegal w).returnM.mstatus.mie = s.mstatus.mie ∧
      (s.raiseIllegal w).returnM.readPc = s.readPc ∧ SameRegs s (s.raiseIllegal w).returnM ∧
      SameMem s (s.raiseIllegal w).returnM ∧ SameHost s (s.raiseIllegal w).returnM) ∧
    (IllegalGoesToS s →
      (s.raiseIllegal w).returnS.mode = s.mode ∧ (s.raiseIllegal w).returnS.sstatus.sie = s.sstatus.sie ∧
      (s.raiseIllegal w).returnS.readPc = s.readPc ∧ SameRegs s (s.raiseIllegal w).returnS ∧
      SameMem s (s.raiseIllegal w).returnS ∧ SameHost s (s.raiseIllegal w).returnS)

/-- R86: returning to a faulting instruction without changing its word raises IllegalInstruction again,
and arrives in the same state as the first time (with the returns of notes/assumptions/9.md). -/
def Obligations.ReturningToAFaultingWordTrapsAgain : Prop :=
  ∀ (s t : State) (w : Word), s.fetchWord = .ok w → decode s.xlen w = .illegal w → step s = .next t →
    (¬ IllegalGoesToS s → step t.returnM = .next t) ∧ (IllegalGoesToS s → step t.returnS = .next t)

/-- R87: an instruction that completes does so in the same way in every mode; and no instruction changes
the mode but by raising IllegalInstruction. -/
def Obligations.CompletingIsTheSameInEveryMode : Prop :=
  (∀ (i : Instr) (s : State) (k : Mode), i.wellFormed s.xlen = true →
    ∃ t, exec i s = .next t ∧ exec i { s with mode := k } = .next { t with mode := k }) ∧
  (∀ (i : Instr) (s t : State), exec i s = .next t → t.mode ≠ s.mode → RaisesIllegal i s)

/-- R12: the result depends on the source operand values, the selector field, the opcode and XLEN, and on
nothing else: not on the register numbers, and not on the rest of the state. -/
def Obligations.ResultDependsOnlyOnOperandsFieldAndXlen : Prop :=
  ∀ (i j : Instr) (s u : State), i.wellFormed s.xlen = true → u.xlen = s.xlen →
    j.op = i.op → slotField j = slotField i → roundField j = roundField i →
    (sourceRegs j).map u.readReg = (sourceRegs i).map s.readReg →
    ∃ v, CompletesWith i s (destReg i) v ∧ CompletesWith j u (destReg j) v

/-- R17: the functional unit driven with an instruction's operands has port illegal at 1 exactly when the
instruction raises IllegalInstruction, and else has on port result the value the instruction writes. -/
def Obligations.UnitPortsAgreeWithExecution : Prop :=
  ∀ (i : Instr) (s : State) (u : UnitInput), DrivesPorts i s u →
    (∀ v, blockUnit u = some v → CompletesWith i s (destReg i) v) ∧
    (blockUnit u = none → RaisesIllegal i s) ∧
    (blockUnit u = none ↔ i.wellFormed s.xlen = false)

/-- R19: no instruction reads memory, for replacing all of memory changes nothing but memory itself, and
none writes it. -/
def Obligations.NoInstructionReadsOrWritesMemory : Prop :=
  ∀ (i : Instr) (s : State) (m : List Host.Cell),
    ∃ t, exec i s = .next t ∧ exec i { s with mem := m } = .next { t with mem := m } ∧ t.mem = s.mem

/-- R15: x[0] reads as 0 and a write to it is discarded; a write to another register is read back modulo
2^XLEN and leaves every other register alone. -/
def Obligations.RegisterReadsAfterWrites : Prop :=
  ∀ (s : State) (rd : Reg) (v : XWord),
    s.readReg 0 = 0 ∧ (∀ r, (s.writeReg 0 v).readReg r = s.readReg r) ∧
    (rd ≠ 0 → ((s.writeReg rd v).readReg rd).toNat = v.toNat % 2 ^ xlenBits s.xlen) ∧
    (∀ r, r ≠ rd → (s.writeReg rd v).readReg r = s.readReg r)

/-- R23 with the primitives of R8: a store of n bytes puts byte k of the value at address + k, a load of
the same bytes gives the value's low 8n bits back, and every other byte of memory reads as before. That
addresses wrap modulo 2^XLEN is the model's choice (notes/assumptions/10.md), and so is that an address not
aligned to n is served like any other (notes/assumptions/18.md). -/
def Obligations.StoreThenLoadIsLittleEndian : Prop :=
  ∀ (s : State) (a v : XWord) (n : Nat), n ≤ 8 →
    (∀ k < n, (s.memWrite a n v).readByte (a + BitVec.ofNat 64 k) = some (byteAt v k)) ∧
    (∃ u, (s.memWrite a n v).memRead a n = some u ∧ u.toNat = v.toNat % 2 ^ (8 * n)) ∧
    (∀ b : XWord, (∀ k < n, s.memKey b ≠ s.memKey (a + BitVec.ofNat 64 k)) →
      (s.memWrite a n v).readByte b = s.readByte b)

/-- R10: the SHA-256, SM3 and SM4 instructions write a 32-bit result, sign-extended at XLEN 64, and read
only bits 31:0 of their sources. -/
def Obligations.WordResultsAreSignExtendedAndReadLowWords : Prop :=
  ∀ (i : Instr) (s : State),
    i.op ∈ [Op.sha256sig0, .sha256sig1, .sha256sum0, .sha256sum1, .sm3p0, .sm3p1, .sm4ed, .sm4ks] →
    ∃ r : Word, CompletesWith i s (destReg i) (wordResult s.xlen r) ∧
      ∀ u : State, u.xlen = s.xlen →
        (∀ q ∈ sourceRegs i, (u.readReg q).setWidth 32 = (s.readReg q).setWidth 32) →
        CompletesWith i u (destReg i) (wordResult u.xlen r)

/-! ## Shared functions (00_scope.md R9, 40_gf_sbox.md) -/

/-- R9: rotation by any amount, reduced modulo the width. -/
def Obligations.RotationsReduceTheirAmountAndInvert : Prop :=
  ∀ (w : Nat) (x : BitVec w) (n : Nat), 0 < w →
    (∀ k < w, (ror x n).getLsbD k = x.getLsbD ((k + n) % w)) ∧
    rol x n = ror x ((w - n % w) % w) ∧ ror x n = ror x (n % w) ∧
    rol (ror x n) n = x ∧ ror x w = x

/-- R38, R39: gf_mul is the product of polynomials over GF(2) modulo m(x) = 0x11B, a commutative and
associative multiplication that distributes over XOR, with unit 1, and xtime is the product with 2. -/
def Obligations.GfMultiplierIsTheAesField : Prop :=
  (∀ a b : Byte, ∃ q : Byte,
    clmulFull (a.setWidth 16) (b.setWidth 16) =
      clmulFull (q.setWidth 16) 0x011B ^^^ (gfMul a b).setWidth (2 * 16)) ∧
  (∀ a b : Byte, gfMul a b = gfMul b a) ∧
  (∀ a b c : Byte, gfMul (gfMul a b) c = gfMul a (gfMul b c)) ∧
  (∀ a b c : Byte, gfMul a (b ^^^ c) = gfMul a b ^^^ gfMul a c) ∧
  (∀ a : Byte, gfMul a 0x01 = a ∧ gfMul a 0x00 = 0x00 ∧ xtime a = gfMul a 0x02) ∧
  gfMul 0x57 0x83 = 0xC1 ∧ gfMul 0x57 0x13 = 0xFE ∧ xtime 0x57 = 0xAE

/-- R40: the inverter gives the one inverse of every element but 0, and 0 for 0. -/
def Obligations.GfInverterGivesTheInverse : Prop :=
  (∀ a : Byte, a ≠ 0 → gfMul a (gfInv a) = 0x01 ∧ ∀ b, gfMul a b = 0x01 → b = gfInv a) ∧
  (∀ a : Byte, gfInv a = (List.replicate 254 a).foldr gfMul 0x01) ∧
  gfInv 0x00 = 0x00 ∧ gfInv 0x53 = 0xCA ∧ gfInv 0x02 = 0x8D ∧ gfInv 0x01 = 0x01

/-- R41: the AES S-box table is the affine map of the inverse. -/
def Obligations.AesSboxIsTheAffineMapOfTheInverse : Prop :=
  (∀ v : Byte, aesSbox v = gfInv v ^^^ (gfInv v).rotateLeft 1 ^^^ (gfInv v).rotateLeft 2 ^^^
    (gfInv v).rotateLeft 3 ^^^ (gfInv v).rotateLeft 4 ^^^ 0x63) ∧
  aesSbox 0x00 = 0x63 ∧ aesSbox 0x53 = 0xED

/-- R42: the AES inverse S-box table is the inverse permutation. -/
def Obligations.AesInverseSboxInvertsTheSbox : Prop :=
  ∀ v : Byte, aesInvSbox (aesSbox v) = v ∧ aesSbox (aesInvSbox v) = v

/-- R43: the SM4 S-box is a permutation of the bytes, with the values the rule names. -/
def Obligations.Sm4SboxIsAPermutation : Prop :=
  (∀ v u : Byte, sm4Sbox v = sm4Sbox u → v = u) ∧ (∀ u : Byte, ∃ v, sm4Sbox v = u) ∧
  sm4Sbox 0x00 = 0xD6 ∧ sm4Sbox 0xFF = 0x48 ∧ sm4Sbox 0x71 = 0x00

/-- R44: word substitution applies the table to every byte independently, on words and on doublewords. -/
def Obligations.WordSubstitutionActsOnEachByte : Prop :=
  (∀ (table : Byte → Byte) (w : Word), ∀ i < 4, byteAt (subBytes table 4 w) i = table (byteAt w i)) ∧
  (∀ (table : Byte → Byte) (d : Dword), ∀ i < 8, byteAt (subBytes table 8 d) i = table (byteAt d i)) ∧
  (∀ w : Word, ∀ i < 4, byteAt (aesSubword w) i = aesSbox (byteAt w i) ∧
    byteAt (aesInvSubword w) i = aesInvSbox (byteAt w i)) ∧
  (∀ (table : Byte → Byte) (d : Dword),
    subBytes table 8 d = onColumns (fun w => subBytes table 4 w) d)

/-- R45, R46: MixColumns and InvMixColumns of a column by rows, inverse to each other, and as the XOR of
the rotated one-byte contributions. -/
def Obligations.MixColumnsAndItsInverse : Prop :=
  (∀ c : Word, ∀ r < 4,
    byteAt (aesMixcolumnFwd c) r =
      gfMul 2 (byteAt c r) ^^^ gfMul 3 (byteAt c ((r + 1) % 4)) ^^^ byteAt c ((r + 2) % 4) ^^^
        byteAt c ((r + 3) % 4) ∧
    byteAt (aesMixcolumnInv c) r =
      gfMul 0xE (byteAt c r) ^^^ gfMul 0xB (byteAt c ((r + 1) % 4)) ^^^
        gfMul 0xD (byteAt c ((r + 2) % 4)) ^^^ gfMul 0x9 (byteAt c ((r + 3) % 4))) ∧
  (∀ c : Word, aesMixcolumnInv (aesMixcolumnFwd c) = c) ∧
  (∀ b : Byte, aesMixcolumnByteFwd b = gfMul b 0x03 ++ b ++ b ++ gfMul b 0x02 ∧
    aesMixcolumnByteInv b = gfMul b 0x0B ++ gfMul b 0x0D ++ gfMul b 0x09 ++ gfMul b 0x0E ∧
    aesMixcolumnFwd (b.setWidth 32) = aesMixcolumnByteFwd b ∧
    aesMixcolumnInv (b.setWidth 32) = aesMixcolumnByteInv b) ∧
  (∀ c : Word,
    aesMixcolumnFwd c = aesMixcolumnByteFwd (byteAt c 0) ^^^ (aesMixcolumnByteFwd (byteAt c 1)).rotateLeft 8 ^^^
      (aesMixcolumnByteFwd (byteAt c 2)).rotateLeft 16 ^^^ (aesMixcolumnByteFwd (byteAt c 3)).rotateLeft 24 ∧
    aesMixcolumnInv c = aesMixcolumnByteInv (byteAt c 0) ^^^ (aesMixcolumnByteInv (byteAt c 1)).rotateLeft 8 ^^^
      (aesMixcolumnByteInv (byteAt c 2)).rotateLeft 16 ^^^ (aesMixcolumnByteInv (byteAt c 3)).rotateLeft 24) ∧
  aesMixcolumnFwd 0x455313DB = 0xBCA14D8E

/-- R47: ShiftRows and InvShiftRows by bytes, row 0 unchanged, inverse to each other. -/
def Obligations.ShiftRowsAndItsInverse : Prop :=
  ∀ s : BitVec 128,
    (∀ r < 4, ∀ c < 4,
      byteAt (aesShiftrowsFwd s) (r + 4 * c) = byteAt s (r + 4 * ((c + r) % 4)) ∧
      byteAt (aesShiftrowsInv s) (r + 4 * ((c + r) % 4)) = byteAt s (r + 4 * c)) ∧
    (∀ c < 4, byteAt (aesShiftrowsFwd s) (4 * c) = byteAt s (4 * c) ∧
      byteAt (aesShiftrowsInv s) (4 * c) = byteAt s (4 * c)) ∧
    aesShiftrowsInv (aesShiftrowsFwd s) = s ∧ aesShiftrowsFwd (aesShiftrowsInv s) = s

/-- R48: the eleven round constants. -/
def Obligations.RoundConstantsAreThePowersOfX : Prop :=
  (∀ n : BitVec 4, n.toNat ≤ 9 → aesRcon n = ((xtime^[n.toNat]) 0x01).setWidth 32) ∧ aesRcon 0xA = 0 ∧
  [aesRcon 0, aesRcon 1, aesRcon 2, aesRcon 3, aesRcon 4, aesRcon 5, aesRcon 6, aesRcon 7, aesRcon 8,
    aesRcon 9] = [0x01, 0x02, 0x04, 0x08, 0x10, 0x20, 0x40, 0x80, 0x1B, 0x36]

/-! ## Instructions, family by family: result, frame, encoding, exceptions, corner cases, examples -/

/-- R49, R50: clmul and clmulh. The full product is `clmulFull`, whose bits the next statement gives. -/
def Obligations.CarrylessMultiplyWritesTheHalvesOfTheProduct : Prop :=
  (∀ (s : State) (rd rs1 rs2 : Reg),
    CompletesWith (.clmul rd rs1 rs2) s rd (clmulResult s.xlen (s.readReg rs1) (s.readReg rs2)) ∧
    CompletesWith (.clmulh rd rs1 rs2) s rd (clmulhResult s.xlen (s.readReg rs1) (s.readReg rs2)) ∧
    HasFormatR (.clmul rd rs1 rs2) 0x0A001033 rd rs1 rs2 ∧
    HasFormatR (.clmulh rd rs1 rs2) 0x0A003033 rd rs1 rs2) ∧
  (∀ a b : XWord,
    clmulhResult .rv64 a b ++ clmulResult .rv64 a b = clmulFull a b ∧
    (clmulhResult .rv32 a b).setWidth 32 ++ (clmulResult .rv32 a b).setWidth 32 =
      clmulFull (a.setWidth 32) (b.setWidth 32) ∧
    FitsXlen .rv32 (clmulResult .rv32 a b) ∧ FitsXlen .rv32 (clmulhResult .rv32 a b)) ∧
  (∀ (x : Xlen) (a b : XWord),
    clmulResult x a 0 = 0 ∧ clmulhResult x a 0 = 0 ∧ clmulResult x a 1 = truncX x a ∧ clmulhResult x a 1 = 0 ∧
    clmulResult x a b = clmulResult x b a ∧
    (∀ k < xlenBits x, clmulResult x a (1 <<< k) = truncX x (a <<< k)) ∧
    (∀ k < xlenBits x, (clmulResult x a a).getLsbD k = (decide (k % 2 = 0) && a.getLsbD (k / 2))) ∧
    (clmulhResult x a b).getLsbD (xlenBits x - 1) = false) ∧
  clmulResult .rv32 0xFFFFFFFF 0xFFFFFFFF = 0x55555555 ∧
  clmulhResult .rv32 0xFFFFFFFF 0xFFFFFFFF = 0x55555555 ∧
  clmulResult .rv64 0xFFFFFFFFFFFFFFFF 0xFFFFFFFFFFFFFFFF = 0x5555555555555555 ∧
  clmulhResult .rv32 0x80000000 0x80000000 = 0x40000000 ∧
  clmulhResult .rv64 0x8000000000000000 0x8000000000000000 = 0x4000000000000000 ∧
  clmulResult .rv32 0x12345678 0x9ABCDEF0 = 0x5CD25A80 ∧
  clmulhResult .rv32 0x12345678 0x9ABCDEF0 = 0x08860E94 ∧
  clmulResult .rv64 0x0123456789ABCDEF 0xFEDCBA9876543210 = 0x40A0789828C810F0 ∧
  clmulhResult .rv64 0x0123456789ABCDEF 0xFEDCBA9876543210 = 0x00E038D8688850B0

/-- 41_clmul.md: bit k of the product is the XOR of the AND-products of operand bits of degree sum k, so
its top bit is 0. -/
def Obligations.CarrylessProductBitsAreTheDegreeSums : Prop :=
  ∀ (w : Nat) (a b : BitVec w),
    (∀ k, (clmulFull a b).getLsbD k =
      (List.range (k + 1)).foldl (fun acc i => acc ^^ (a.getLsbD i && b.getLsbD (k - i))) false) ∧
    (clmulFull a b).getLsbD (2 * w - 1) = false

/-- R51 to R54: the 32-bit sliced AES instructions. -/
def Obligations.SlicedAesSubstitutesOneByteAndAccumulates : Prop :=
  (∀ (s : State) (rd rs1 rs2 : Reg) (bs : BitVec 2),
    let acc : Word := (s.readReg rs1).setWidth 32
    let si : Byte := byteAt (s.readReg rs2) bs.toNat
    (s.xlen = .rv32 →
      CompletesWith (.aes32esi rd rs1 rs2 bs) s rd
        ((acc ^^^ ((aesSbox si).setWidth 32).rotateLeft (8 * bs.toNat)).setWidth 64) ∧
      CompletesWith (.aes32esmi rd rs1 rs2 bs) s rd
        ((acc ^^^ (aesMixcolumnByteFwd (aesSbox si)).rotateLeft (8 * bs.toNat)).setWidth 64) ∧
      CompletesWith (.aes32dsi rd rs1 rs2 bs) s rd
        ((acc ^^^ ((aesInvSbox si).setWidth 32).rotateLeft (8 * bs.toNat)).setWidth 64) ∧
      CompletesWith (.aes32dsmi rd rs1 rs2 bs) s rd
        ((acc ^^^ (aesMixcolumnByteInv (aesInvSbox si)).rotateLeft (8 * bs.toNat)).setWidth 64)) ∧
    (s.xlen = .rv64 →
      RaisesIllegal (.aes32esi rd rs1 rs2 bs) s ∧ RaisesIllegal (.aes32esmi rd rs1 rs2 bs) s ∧
      RaisesIllegal (.aes32dsi rd rs1 rs2 bs) s ∧ RaisesIllegal (.aes32dsmi rd rs1 rs2 bs) s) ∧
    HasFormatRbs (.aes32esi rd rs1 rs2 bs) 0x22000033 rd rs1 rs2 bs ∧
    HasFormatRbs (.aes32esmi rd rs1 rs2 bs) 0x26000033 rd rs1 rs2 bs ∧
    HasFormatRbs (.aes32dsi rd rs1 rs2 bs) 0x2A000033 rd rs1 rs2 bs ∧
    HasFormatRbs (.aes32dsmi rd rs1 rs2 bs) 0x2E000033 rd rs1 rs2 bs) ∧
  (∀ (acc src : Word) (bs : BitVec 2),
    (∀ k < 4, k ≠ bs.toNat → byteAt (aes32esiResult acc src bs) k = byteAt acc k ∧
      byteAt (aes32dsiResult acc src bs) k = byteAt acc k) ∧
    (∀ k < 4, byteAt (aes32esiResult 0 src bs) k = if k = bs.toNat then aesSbox (byteAt src k) else 0) ∧
    byteAt (aes32esiResult 0 0 bs) bs.toNat = 0x63 ∧ byteAt (aes32dsiResult 0 0 bs) bs.toNat = 0x52 ∧
    (byteAt src bs.toNat = 0x52 → aes32esmiResult acc src bs = acc) ∧
    (byteAt src bs.toNat = 0x63 → aes32dsiResult acc src bs = acc ∧ aes32dsmiResult acc src bs = acc)) ∧
  aes32esiResult 0 0x00112233 3 = 0x63000000 ∧ aes32esiResult 0 0x00112233 0 = 0x000000C3 ∧
  aes32esmiResult 0 0x00112233 0 = 0x5EC3C39D ∧ aes32esmiResult 0 0x00112233 1 = 0x93933DAE ∧
  aes32esmiResult 0 0x00112233 2 = 0x821F9D82 ∧ aes32esmiResult 0 0x00112233 3 = 0xC6A56363 ∧
  aes32dsiResult 0 0x00112233 0 = 0x00000066 ∧ aes32dsiResult 0 0x00112233 3 = 0x52000000 ∧
  aes32dsmiResult 0 0x00112233 0 = 0xB7F87B52 ∧ aes32dsmiResult 0 0x00112233 1 = 0x3E58996B ∧
  aes32dsmiResult 0 0x00112233 2 = 0xBA25671B ∧ aes32dsmiResult 0 0x00112233 3 = 0x5150A7F4

/-- R55 to R58: the 64-bit AES round instructions. -/
def Obligations.Aes64RoundsWriteOneHalfOfTheNextState : Prop :=
  (∀ (s : State) (rd rs1 rs2 : Reg),
    let st : BitVec 128 := s.readReg rs2 ++ s.readReg rs1
    let f : Dword := (aesShiftrowsFwd st).setWidth 64
    let g : Dword := (aesShiftrowsInv st).setWidth 64
    let u : Dword := aesSubword (f.extractLsb' 32 32) ++ aesSubword (f.setWidth 32)
    let v : Dword := aesInvSubword (g.extractLsb' 32 32) ++ aesInvSubword (g.setWidth 32)
    (s.xlen = .rv64 →
      CompletesWith (.aes64es rd rs1 rs2) s rd u ∧
      CompletesWith (.aes64esm rd rs1 rs2) s rd
        (aesMixcolumnFwd (u.extractLsb' 32 32) ++ aesMixcolumnFwd (u.setWidth 32)) ∧
      CompletesWith (.aes64ds rd rs1 rs2) s rd v ∧
      CompletesWith (.aes64dsm rd rs1 rs2) s rd
        (aesMixcolumnInv (v.extractLsb' 32 32) ++ aesMixcolumnInv (v.setWidth 32))) ∧
    (s.xlen = .rv32 →
      RaisesIllegal (.aes64es rd rs1 rs2) s ∧ RaisesIllegal (.aes64esm rd rs1 rs2) s ∧
      RaisesIllegal (.aes64ds rd rs1 rs2) s ∧ RaisesIllegal (.aes64dsm rd rs1 rs2) s) ∧
    HasFormatR (.aes64es rd rs1 rs2) 0x32000033 rd rs1 rs2 ∧
    HasFormatR (.aes64esm rd rs1 rs2) 0x36000033 rd rs1 rs2 ∧
    HasFormatR (.aes64ds rd rs1 rs2) 0x3A000033 rd rs1 rs2 ∧
    HasFormatR (.aes64dsm rd rs1 rs2) 0x3E000033 rd rs1 rs2) ∧
  (∀ a b : Dword, ∀ k < 8,
    byteAt (aes64esResult a b) k =
      aesSbox (byteAt (b ++ a : BitVec 128) ([0, 5, 10, 15, 4, 9, 14, 3].getD k 0)) ∧
    byteAt (aes64dsResult a b) k =
      aesInvSbox (byteAt (b ++ a : BitVec 128) ([0, 13, 10, 7, 4, 1, 14, 11].getD k 0))) ∧
  aes64esResult 0 0 = 0x6363636363636363 ∧ aes64esmResult 0 0 = 0x6363636363636363 ∧
  aes64dsResult 0 0 = 0x5252525252525252 ∧ aes64dsmResult 0 0 = 0x5252525252525252 ∧
  (∀ b : Byte, aesMixcolumnFwd (b ++ b ++ b ++ b) = b ++ b ++ b ++ b) ∧
  aes64esResult 0x7766554433221100 0xFFEEDDCCBBAA9988 = 0xC328EE1B16ACFC63 ∧
  aes64esResult 0xFFEEDDCCBBAA9988 0x7766554433221100 = 0xEA33824BF593C1C4 ∧
  aes64esmResult 0x7766554433221100 0xFFEEDDCCBBAA9988 = 0x76FB67F4D9E67963 ∧
  aes64esmResult 0xFFEEDDCCBBAA9988 0x7766554433221100 = 0xA38AEBD2F43C06AD ∧
  aes64dsResult 0x7766554433221100 0xFFEEDDCCBBAA9988 = 0xFE99E3860262C952 ∧
  aes64dsResult 0xFFEEDDCCBBAA9988 0x7766554433221100 = 0x66D3F9277D94ED97 ∧
  aes64dsmResult 0x7766554433221100 0xFFEEDDCCBBAA9988 = 0x68397122C100E7DD ∧
  aes64dsmResult 0xFFEEDDCCBBAA9988 0x7766554433221100 = 0xB041F963A3360E08

/-- R59: aes64im. -/
def Obligations.Aes64imInvertsMixColumnsOnTwoColumns : Prop :=
  (∀ (s : State) (rd rs1 : Reg),
    let a : Dword := s.readReg rs1
    (s.xlen = .rv64 → CompletesWith (.aes64im rd rs1) s rd
      (aesMixcolumnInv (a.extractLsb' 32 32) ++ aesMixcolumnInv (a.setWidth 32))) ∧
    (s.xlen = .rv32 → RaisesIllegal (.aes64im rd rs1) s) ∧
    HasFormatIunary (.aes64im rd rs1) 0x30001013 rd rs1) ∧
  (∀ a b : Dword, aes64imResult (a ^^^ b) = aes64imResult a ^^^ aes64imResult b) ∧
  aes64imResult 0 = 0 ∧
  (∀ b : Byte, aesMixcolumnInv (b ++ b ++ b ++ b) = b ++ b ++ b ++ b) ∧
  (∀ c d : Word, aes64imResult (aesMixcolumnFwd c ++ aesMixcolumnFwd d) = c ++ d) ∧
  aes64imResult 0x7766554433221100 = 0x99CCBBEEDD88FFAA

/-- R60, R61: the two steps of the AES key schedule. -/
def Obligations.AesKeyScheduleStepsWriteTheirWords : Prop :=
  (∀ (s : State) (rd rs1 : Reg) (rnum : BitVec 4),
    let t1 : Word := (s.readReg rs1).extractLsb' 32 32
    let t2 : Word := if rnum = 0xA then t1 else t1.rotateRight 8
    let w : Word := aesSubword t2 ^^^ aesRcon rnum
    (s.xlen = .rv64 → rnum.toNat ≤ 0xA → CompletesWith (.aes64ks1i rd rs1 rnum) s rd (w ++ w)) ∧
    (s.xlen = .rv32 ∨ rnum.toNat > 0xA → RaisesIllegal (.aes64ks1i rd rs1 rnum) s) ∧
    HasFormatIrnum (.aes64ks1i rd rs1 rnum) 0x31001013 rd rs1 rnum) ∧
  (∀ (s : State) (rd rs1 rs2 : Reg),
    let w0 : Word := (s.readReg rs1).extractLsb' 32 32 ^^^ (s.readReg rs2).setWidth 32
    let w1 : Word := w0 ^^^ (s.readReg rs2).extractLsb' 32 32
    (s.xlen = .rv64 → CompletesWith (.aes64ks2 rd rs1 rs2) s rd (w1 ++ w0)) ∧
    (s.xlen = .rv32 → RaisesIllegal (.aes64ks2 rd rs1 rs2) s) ∧
    HasFormatR (.aes64ks2 rd rs1 rs2) 0x7E000033 rd rs1 rs2) ∧
  (∀ (h l m : Word) (rnum : BitVec 4) (b : Dword),
    aes64ks1iResult (h ++ l) rnum = aes64ks1iResult (h ++ m) rnum ∧
    aes64ks2Result (h ++ l) b = aes64ks2Result (h ++ m) b ∧
    aes64ks1iResult (h ++ l) 0xA = aesSubword h ++ aesSubword h ∧
    (aes64ks1iResult (h ++ l) rnum).extractLsb' 32 32 = (aes64ks1iResult (h ++ l) rnum).setWidth 32 ∧
    aes64ks2Result (0#32 ++ l) b = (b.extractLsb' 32 32 ^^^ b.setWidth 32) ++ b.setWidth 32) ∧
  aes64ks1iResult 0x0F0E0D0C0B0A0908 0x0 = 0xFE76ABD6FE76ABD6 ∧
  aes64ks1iResult 0x0F0E0D0C0B0A0908 0x9 = 0xFE76ABE1FE76ABE1 ∧
  aes64ks1iResult 0x0F0E0D0C0B0A0908 0xA = 0x76ABD7FE76ABD7FE ∧
  aes64ks2Result 0xFE76ABD6FE76ABD6 0x0706050403020100 = 0xFA72AFD2FD74AAD6

/-- R62 to R65: the SHA-256 functions. -/
def Obligations.Sha256FunctionsWriteTheirFormulas : Prop :=
  (∀ (s : State) (rd rs1 : Reg),
    let v : Word := (s.readReg rs1).setWidth 32
    CompletesWith (.sha256sig0 rd rs1) s rd
      (wordResult s.xlen (v.rotateRight 7 ^^^ v.rotateRight 18 ^^^ (v >>> 3))) ∧
    CompletesWith (.sha256sig1 rd rs1) s rd
      (wordResult s.xlen (v.rotateRight 17 ^^^ v.rotateRight 19 ^^^ (v >>> 10))) ∧
    CompletesWith (.sha256sum0 rd rs1) s rd
      (wordResult s.xlen (v.rotateRight 2 ^^^ v.rotateRight 13 ^^^ v.rotateRight 22)) ∧
    CompletesWith (.sha256sum1 rd rs1) s rd
      (wordResult s.xlen (v.rotateRight 6 ^^^ v.rotateRight 11 ^^^ v.rotateRight 25)) ∧
    HasFormatIunary (.sha256sig0 rd rs1) 0x10201013 rd rs1 ∧
    HasFormatIunary (.sha256sig1 rd rs1) 0x10301013 rd rs1 ∧
    HasFormatIunary (.sha256sum0 rd rs1) 0x10001013 rd rs1 ∧
    HasFormatIunary (.sha256sum1 rd rs1) 0x10101013 rd rs1) ∧
  (∀ a b : Word,
    sha256sig0Result (a ^^^ b) = sha256sig0Result a ^^^ sha256sig0Result b ∧
    sha256sig1Result (a ^^^ b) = sha256sig1Result a ^^^ sha256sig1Result b ∧
    sha256sum0Result (a ^^^ b) = sha256sum0Result a ^^^ sha256sum0Result b ∧
    sha256sum1Result (a ^^^ b) = sha256sum1Result a ^^^ sha256sum1Result b) ∧
  (∀ (a : Word) (n : Nat), sha256sum0Result (a.rotateRight n) = (sha256sum0Result a).rotateRight n) ∧
  [sha256sig0Result 0, sha256sig0Result 0xFFFFFFFF, sha256sig0Result 1, sha256sig0Result 0x80000000] =
    [0, 0x1FFFFFFF, 0x02004000, 0x11002000] ∧
  [sha256sig1Result 0, sha256sig1Result 0xFFFFFFFF, sha256sig1Result 1, sha256sig1Result 0x80000000] =
    [0, 0x003FFFFF, 0x0000A000, 0x00205000] ∧
  [sha256sum0Result 0, sha256sum0Result 0xFFFFFFFF, sha256sum0Result 1, sha256sum0Result 0x80000000] =
    [0, 0xFFFFFFFF, 0x40080400, 0x20040200] ∧
  [sha256sum1Result 0, sha256sum1Result 0xFFFFFFFF, sha256sum1Result 1, sha256sum1Result 0x80000000] =
    [0, 0xFFFFFFFF, 0x04200080, 0x02100040] ∧
  [sha256sig0Result 0x61626380, sha256sig1Result 0x61626380, sha256sum0Result 0x61626380,
    sha256sum1Result 0x61626380] = [0x940E90EF, 0x7DA86405, 0x8DD59276, 0xC0B865F2] ∧
  [wordResult .rv64 0x940E90EF, wordResult .rv64 0x8DD59276, wordResult .rv64 0xC0B865F2,
    wordResult .rv64 0xFFFFFFFF] =
    [0xFFFFFFFF940E90EF, 0xFFFFFFFF8DD59276, 0xFFFFFFFFC0B865F2, 0xFFFFFFFFFFFFFFFF]

/-- R67 to R70: the 64-bit SHA-512 instructions write the reference functions of R66. -/
def Obligations.Sha512DirectFormsWriteTheReferenceFunctions : Prop :=
  (∀ (s : State) (rd rs1 : Reg),
    let v : Dword := s.readReg rs1
    (s.xlen = .rv64 →
      CompletesWith (.sha512sig0 rd rs1) s rd (v.rotateRight 1 ^^^ v.rotateRight 8 ^^^ (v >>> 7)) ∧
      CompletesWith (.sha512sig1 rd rs1) s rd (v.rotateRight 19 ^^^ v.rotateRight 61 ^^^ (v >>> 6)) ∧
      CompletesWith (.sha512sum0 rd rs1) s rd (v.rotateRight 28 ^^^ v.rotateRight 34 ^^^ v.rotateRight 39) ∧
      CompletesWith (.sha512sum1 rd rs1) s rd (v.rotateRight 14 ^^^ v.rotateRight 18 ^^^ v.rotateRight 41)) ∧
    (s.xlen = .rv32 →
      RaisesIllegal (.sha512sig0 rd rs1) s ∧ RaisesIllegal (.sha512sig1 rd rs1) s ∧
      RaisesIllegal (.sha512sum0 rd rs1) s ∧ RaisesIllegal (.sha512sum1 rd rs1) s) ∧
    HasFormatIunary (.sha512sig0 rd rs1) 0x10601013 rd rs1 ∧
    HasFormatIunary (.sha512sig1 rd rs1) 0x10701013 rd rs1 ∧
    HasFormatIunary (.sha512sum0 rd rs1) 0x10401013 rd rs1 ∧
    HasFormatIunary (.sha512sum1 rd rs1) 0x10501013 rd rs1) ∧
  (∀ a b : Dword, sha512sig0Result (a ^^^ b) = sha512sig0Result a ^^^ sha512sig0Result b) ∧
  [sha512sig0Result 0, sha512sig0Result 0xFFFFFFFFFFFFFFFF, sha512sig0Result 1,
    sha512sig0Result 0x8000000000000000, sha512sig0Result 0x0123456789ABCDEF] =
    [0, 0x01FFFFFFFFFFFFFF, 0x8100000000000000, 0x4180000000000000, 0x6F92C77C6C4F1AA1] ∧
  [sha512sig1Result 0, sha512sig1Result 0xFFFFFFFFFFFFFFFF, sha512sig1Result 1,
    sha512sig1Result 0x8000000000000000, sha512sig1Result 0x0123456789ABCDEF] =
    [0, 0x03FFFFFFFFFFFFFF, 0x0000200000000008, 0x0200100000000004, 0x70A3460DBBD4317A] ∧
  [sha512sum0Result 0, sha512sum0Result 0xFFFFFFFFFFFFFFFF, sha512sum0Result 1,
    sha512sum0Result 0x8000000000000000, sha512sum0Result 0x0123456789ABCDEF] =
    [0, 0xFFFFFFFFFFFFFFFF, 0x0000001042000000, 0x0000000821000000, 0xB7C57A100C7EC1AB] ∧
  [sha512sum1Result 0, sha512sum1Result 0xFFFFFFFFFFFFFFFF, sha512sum1Result 1,
    sha512sum1Result 0x8000000000000000, sha512sum1Result 0x0123456789ABCDEF] =
    [0, 0xFFFFFFFFFFFFFFFF, 0x0004400000800000, 0x0002200000400000, 0x7703112333475567]

/-- R71 to R76: the 32-bit split SHA-512 instructions. -/
def Obligations.Sha512SplitFormsWriteTheirFormulas : Prop :=
  (∀ (s : State) (rd rs1 rs2 : Reg),
    let a : Word := (s.readReg rs1).setWidth 32
    let b : Word := (s.readReg rs2).setWidth 32
    (s.xlen = .rv32 →
      CompletesWith (.sha512sig0h rd rs1 rs2) s rd
        (((a >>> 1) ^^^ (a >>> 7) ^^^ (a >>> 8) ^^^ (b <<< 31) ^^^ (b <<< 24)).setWidth 64) ∧
      CompletesWith (.sha512sig0l rd rs1 rs2) s rd
        (((a >>> 1) ^^^ (a >>> 7) ^^^ (a >>> 8) ^^^ (b <<< 31) ^^^ (b <<< 25) ^^^ (b <<< 24)).setWidth 64) ∧
      CompletesWith (.sha512sig1h rd rs1 rs2) s rd
        (((a <<< 3) ^^^ (a >>> 6) ^^^ (a >>> 19) ^^^ (b >>> 29) ^^^ (b <<< 13)).setWidth 64) ∧
      CompletesWith (.sha512sig1l rd rs1 rs2) s rd
        (((a <<< 3) ^^^ (a >>> 6) ^^^ (a >>> 19) ^^^ (b >>> 29) ^^^ (b <<< 26) ^^^ (b <<< 13)).setWidth 64) ∧
      CompletesWith (.sha512sum0r rd rs1 rs2) s rd
        (((a <<< 25) ^^^ (a <<< 30) ^^^ (a >>> 28) ^^^ (b >>> 7) ^^^ (b >>> 2) ^^^ (b <<< 4)).setWidth 64) ∧
      CompletesWith (.sha512sum1r rd rs1 rs2) s rd
        (((a <<< 23) ^^^ (a >>> 14) ^^^ (a >>> 18) ^^^ (b >>> 9) ^^^ (b <<< 18) ^^^ (b <<< 14)).setWidth 64)) ∧
    (s.xlen = .rv64 →
      RaisesIllegal (.sha512sig0h rd rs1 rs2) s ∧ RaisesIllegal (.sha512sig0l rd rs1 rs2) s ∧
      RaisesIllegal (.sha512sig1h rd rs1 rs2) s ∧ RaisesIllegal (.sha512sig1l rd rs1 rs2) s ∧
      RaisesIllegal (.sha512sum0r rd rs1 rs2) s ∧ RaisesIllegal (.sha512sum1r rd rs1 rs2) s) ∧
    HasFormatR (.sha512sig0h rd rs1 rs2) 0x5C000033 rd rs1 rs2 ∧
    HasFormatR (.sha512sig0l rd rs1 rs2) 0x54000033 rd rs1 rs2 ∧
    HasFormatR (.sha512sig1h rd rs1 rs2) 0x5E000033 rd rs1 rs2 ∧
    HasFormatR (.sha512sig1l rd rs1 rs2) 0x56000033 rd rs1 rs2 ∧
    HasFormatR (.sha512sum0r rd rs1 rs2) 0x50000033 rd rs1 rs2 ∧
    HasFormatR (.sha512sum1r rd rs1 rs2) 0x52000033 rd rs1 rs2) ∧
  (∀ hi lo : Word,
    sha512sig0hResult hi lo = (sha512sig0Result (hi ++ lo)).extractLsb' 32 32 ∧
    sha512sig0lResult lo hi = (sha512sig0Result (hi ++ lo)).setWidth 32 ∧
    sha512sig1hResult hi lo = (sha512sig1Result (hi ++ lo)).extractLsb' 32 32 ∧
    sha512sig1lResult lo hi = (sha512sig1Result (hi ++ lo)).setWidth 32 ∧
    sha512sum0rResult hi lo = (sha512sum0Result (hi ++ lo)).extractLsb' 32 32 ∧
    sha512sum0rResult lo hi = (sha512sum0Result (hi ++ lo)).setWidth 32 ∧
    sha512sum1rResult hi lo = (sha512sum1Result (hi ++ lo)).extractLsb' 32 32 ∧
    sha512sum1rResult lo hi = (sha512sum1Result (hi ++ lo)).setWidth 32) ∧
  (∀ r : Word, sha512sum0rResult r r = r.rotateRight 28 ^^^ r.rotateRight 2 ^^^ r.rotateRight 7) ∧
  [sha512sig0hResult 0 1, sha512sig0hResult 1 0, sha512sig0hResult 0xFFFFFFFF 0xFFFFFFFF,
    sha512sig0hResult 0x01234567 0x89ABCDEF] = [0x81000000, 0, 0x01FFFFFF, 0x6F92C77C] ∧
  [sha512sig0lResult 0 1, sha512sig0lResult 1 0, sha512sig0lResult 0xFFFFFFFF 0xFFFFFFFF,
    sha512sig0lResult 0x89ABCDEF 0x01234567] = [0x83000000, 0, 0xFFFFFFFF, 0x6C4F1AA1] ∧
  [sha512sig1hResult 0 1, sha512sig1hResult 1 0, sha512sig1hResult 0xFFFFFFFF 0xFFFFFFFF,
    sha512sig1hResult 0x01234567 0x89ABCDEF] = [0x00002000, 0x00000008, 0x03FFFFFF, 0x70A3460D] ∧
  [sha512sig1lResult 0 1, sha512sig1lResult 1 0, sha512sig1lResult 0xFFFFFFFF 0xFFFFFFFF,
    sha512sig1lResult 0x89ABCDEF 0x01234567] = [0x04002000, 0x00000008, 0xFFFFFFFF, 0xBBD4317A] ∧
  [sha512sum0rResult 0 1, sha512sum0rResult 1 0, sha512sum0rResult 0xFFFFFFFF 0xFFFFFFFF,
    sha512sum0rResult 0x01234567 0x89ABCDEF, sha512sum0rResult 0x89ABCDEF 0x01234567] =
    [0x00000010, 0x42000000, 0xFFFFFFFF, 0xB7C57A10, 0x0C7EC1AB] ∧
  [sha512sum1rResult 0 1, sha512sum1rResult 1 0, sha512sum1rResult 0xFFFFFFFF 0xFFFFFFFF,
    sha512sum1rResult 0x01234567 0x89ABCDEF, sha512sum1rResult 0x89ABCDEF 0x01234567] =
    [0x00044000, 0x00800000, 0xFFFFFFFF, 0x77031123, 0x33475567]

/-- R66: two hosts, one of each XLEN. Where a 64-bit register holds hi @ lo and two 32-bit registers hold
the halves, the split instructions write the two halves of what the 64-bit instruction writes. -/
def Obligations.SplitFormsComputeTheHalvesOfTheDirectForms : Prop :=
  (∀ v : Dword,
    sha512sig0Result v = v.rotateRight 1 ^^^ v.rotateRight 8 ^^^ (v >>> 7) ∧
    sha512sig1Result v = v.rotateRight 19 ^^^ v.rotateRight 61 ^^^ (v >>> 6) ∧
    sha512sum0Result v = v.rotateRight 28 ^^^ v.rotateRight 34 ^^^ v.rotateRight 39 ∧
    sha512sum1Result v = v.rotateRight 14 ^^^ v.rotateRight 18 ^^^ v.rotateRight 41) ∧
  ∀ (s u : State) (rd r rhi rlo : Reg), s.xlen = .rv32 → u.xlen = .rv64 →
    u.readReg r = (s.readReg rhi).setWidth 32 ++ (s.readReg rlo).setWidth 32 →
    (∃ h l : Word, CompletesWith (.sha512sig0 rd r) u rd (h ++ l) ∧
      CompletesWith (.sha512sig0h rd rhi rlo) s rd (h.setWidth 64) ∧
      CompletesWith (.sha512sig0l rd rlo rhi) s rd (l.setWidth 64)) ∧
    (∃ h l : Word, CompletesWith (.sha512sig1 rd r) u rd (h ++ l) ∧
      CompletesWith (.sha512sig1h rd rhi rlo) s rd (h.setWidth 64) ∧
      CompletesWith (.sha512sig1l rd rlo rhi) s rd (l.setWidth 64)) ∧
    (∃ h l : Word, CompletesWith (.sha512sum0 rd r) u rd (h ++ l) ∧
      CompletesWith (.sha512sum0r rd rhi rlo) s rd (h.setWidth 64) ∧
      CompletesWith (.sha512sum0r rd rlo rhi) s rd (l.setWidth 64)) ∧
    (∃ h l : Word, CompletesWith (.sha512sum1 rd r) u rd (h ++ l) ∧
      CompletesWith (.sha512sum1r rd rhi rlo) s rd (h.setWidth 64) ∧
      CompletesWith (.sha512sum1r rd rlo rhi) s rd (l.setWidth 64))

/-- R77, R78: the SM3 permutations. -/
def Obligations.Sm3PermutationsWriteTheirFormulas : Prop :=
  (∀ (s : State) (rd rs1 : Reg),
    let v : Word := (s.readReg rs1).setWidth 32
    CompletesWith (.sm3p0 rd rs1) s rd (wordResult s.xlen (v ^^^ v.rotateLeft 9 ^^^ v.rotateLeft 17)) ∧
    CompletesWith (.sm3p1 rd rs1) s rd (wordResult s.xlen (v ^^^ v.rotateLeft 15 ^^^ v.rotateLeft 23)) ∧
    HasFormatIunary (.sm3p0 rd rs1) 0x10801013 rd rs1 ∧
    HasFormatIunary (.sm3p1 rd rs1) 0x10901013 rd rs1) ∧
  (∀ a b : Word, sm3p0Result (a ^^^ b) = sm3p0Result a ^^^ sm3p0Result b ∧
    sm3p1Result (a ^^^ b) = sm3p1Result a ^^^ sm3p1Result b) ∧
  (∀ (a : Word) (n : Nat), sm3p0Result (a.rotateLeft n) = (sm3p0Result a).rotateLeft n) ∧
  [sm3p0Result 0, sm3p0Result 0xFFFFFFFF, sm3p0Result 1, sm3p0Result 0x80000000, sm3p0Result 0x61626380] =
    [0, 0xFFFFFFFF, 0x00020201, 0x80010100, 0x62A5A186] ∧
  [sm3p1Result 0, sm3p1Result 0xFFFFFFFF, sm3p1Result 1, sm3p1Result 0x80000000, sm3p1Result 0x61626380] =
    [0, 0xFFFFFFFF, 0x00808001, 0x80404000, 0x9092E200] ∧
  wordResult .rv64 0x80010100 = 0xFFFFFFFF80010100 ∧ wordResult .rv64 0x80404000 = 0xFFFFFFFF80404000 ∧
  wordResult .rv64 (sm3p0Result ((0xDEADBEEF00000001 : Dword).setWidth 32)) = 0x0000000000020201

/-- R79, R80: the SM4 instructions, the byte taken from rs2 alone (90_conflicts.md C2). -/
def Obligations.Sm4InstructionsSubstituteOneByteAndAccumulate : Prop :=
  (∀ (s : State) (rd rs1 rs2 : Reg) (bs : BitVec 2),
    let acc : Word := (s.readReg rs1).setWidth 32
    let b : Word := (sm4Sbox (byteAt (s.readReg rs2) bs.toNat)).setWidth 32
    CompletesWith (.sm4ed rd rs1 rs2 bs) s rd (wordResult s.xlen (acc ^^^
      (b ^^^ b.rotateLeft 2 ^^^ b.rotateLeft 10 ^^^ b.rotateLeft 18 ^^^ b.rotateLeft 24).rotateLeft
        (8 * bs.toNat))) ∧
    CompletesWith (.sm4ks rd rs1 rs2 bs) s rd (wordResult s.xlen (acc ^^^
      (b ^^^ b.rotateLeft 13 ^^^ b.rotateLeft 23).rotateLeft (8 * bs.toNat))) ∧
    HasFormatRbs (.sm4ed rd rs1 rs2 bs) 0x30000033 rd rs1 rs2 bs ∧
    HasFormatRbs (.sm4ks rd rs1 rs2 bs) 0x34000033 rd rs1 rs2 bs) ∧
  (∀ (acc src : Word) (bs : BitVec 2), byteAt src bs.toNat = 0x71 →
    sm4edResult acc src bs = acc ∧ sm4ksResult acc src bs = acc) ∧
  sm4L 0x01 = 0x01040405 ∧ sm4Lk 0x01 = 0x00802001 ∧
  sm4edResult 0 0 0 = 0xD55B5B8E ∧ wordResult .rv64 0xD55B5B8E = 0xFFFFFFFFD55B5B8E ∧
  sm4ksResult 0 0 0 = 0x6B1AC0D6 ∧
  wordResult .rv64 (sm4edResult ((0xAAAAAAAA00000000 : Dword).setWidth 32)
    ((0xFFFFFFFF00112233 : Dword).setWidth 32) 1) = 0x0000000041411051 ∧
  [sm4edResult 0 0x00112233 0, sm4edResult 0 0x00112233 1, sm4edResult 0 0x00112233 2,
    sm4edResult 0 0x00112233 3] = [0xABA6A60D, 0x41411051, 0x9DFB669D, 0x8ED55B5B] ∧
  [sm4ksResult 0 0x00112233 0, sm4ksResult 0 0x00112233 1, sm4ksResult 0 0x00112233 2,
    sm4ksResult 0 0x00112233 3] = [0x549520A9, 0x0A005028, 0xE067338C, 0xD66B1AC0]

/-! ## Compositions -/

/-- 42_aes32.md and 43_aes64.md: four sliced calls, with the source columns chosen as ShiftRows asks,
compute one column of a round; the same column the 64-bit form computes, for all four kinds of round. -/
def Obligations.SlicedAesCallsComputeTheColumnsOfTheRound : Prop :=
  ∀ k c0 c1 c2 c3 : Word,
    let lo : Dword := c1 ++ c0
    let hi : Dword := c3 ++ c2
    let chain (call : Word → Word → BitVec 2 → Word) (p q r t : Word) : Word :=
      call (call (call (call k p 0) q 1) r 2) t 3
    chain aes32esiResult c0 c1 c2 c3 = k ^^^ (aes64esResult lo hi).setWidth 32 ∧
    chain aes32esiResult c1 c2 c3 c0 = k ^^^ (aes64esResult lo hi).extractLsb' 32 32 ∧
    chain aes32esmiResult c0 c1 c2 c3 = k ^^^ (aes64esmResult lo hi).setWidth 32 ∧
    chain aes32esmiResult c1 c2 c3 c0 = k ^^^ (aes64esmResult lo hi).extractLsb' 32 32 ∧
    chain aes32dsiResult c0 c3 c2 c1 = k ^^^ (aes64dsResult lo hi).setWidth 32 ∧
    chain aes32dsiResult c1 c0 c3 c2 = k ^^^ (aes64dsResult lo hi).extractLsb' 32 32 ∧
    chain aes32dsmiResult c0 c3 c2 c1 = k ^^^ (aes64dsmResult lo hi).setWidth 32 ∧
    chain aes32dsmiResult c1 c0 c3 c2 = k ^^^ (aes64dsmResult lo hi).extractLsb' 32 32

/-- 43_aes64.md: the same instruction with its operands swapped gives the other half of the next state,
because ShiftRows commutes with rotating the state by two columns. -/
def Obligations.SwappedOperandsGiveTheOtherHalfOfTheState : Prop :=
  ∀ lo hi : Dword,
    aes64esResult hi lo ++ aes64esResult lo hi = subBytes aesSbox 16 (aesShiftrowsFwd (hi ++ lo)) ∧
    aes64dsResult hi lo ++ aes64dsResult lo hi = subBytes aesInvSbox 16 (aesShiftrowsInv (hi ++ lo)) ∧
    aes64esmResult lo hi = onColumns aesMixcolumnFwd (aes64esResult lo hi) ∧
    aes64dsmResult lo hi = onColumns aesMixcolumnInv (aes64dsResult lo hi)

/-- 43_aes64.md: a decryption round undoes an encryption round, the last round directly, the middle round
with InvMixColumns applied to the halves (the equivalent inverse cipher). -/
def Obligations.Aes64DecryptionUndoesEncryption : Prop :=
  ∀ lo hi : Dword,
    aes64dsResult (aes64esResult lo hi) (aes64esResult hi lo) = lo ∧
    aes64dsResult (aes64imResult (aes64esmResult lo hi)) (aes64imResult (aes64esmResult hi lo)) = lo ∧
    aes64esResult (aes64dsResult lo hi) (aes64dsResult hi lo) = lo

/-- 47_sm4.md: four calls with bs 0 to 3 on one accumulator XOR the whole round transform of the source
into it: L (or L') of the S-box applied to every byte. -/
def Obligations.FourSm4CallsMakeTheRoundTransform : Prop :=
  ∀ acc t : Word,
    sm4edResult (sm4edResult (sm4edResult (sm4edResult acc t 0) t 1) t 2) t 3 =
      acc ^^^ sm4L (subBytes sm4Sbox 4 t) ∧
    sm4ksResult (sm4ksResult (sm4ksResult (sm4ksResult acc t 0) t 1) t 2) t 3 =
      acc ^^^ sm4Lk (subBytes sm4Sbox 4 t)
end

