-- ==== Sys2Proof/Laws/Bits.lean ====
section
/-!
SUPPORT. The bit-field primitives by bits and numbers: rotation is the library's, packing and reading bytes
are inverse, and cutting to XLEN bits.
-/

namespace Sys2Proof.Machine

/-- Rotation as the spec writes it is the library's rotation. -/
theorem ror_eq_rotateRight {w : Nat} (x : BitVec w) (n : Nat) : ror x n = x.rotateRight n := by
  rcases Nat.eq_zero_or_pos w with h | h
  · subst h; exact Subsingleton.elim _ _
  · rw [ror, BitVec.rotateRight_def]
    rcases Nat.eq_zero_or_pos (n % w) with h0 | h0
    · simp [h0]
    · rw [Nat.mod_eq_of_lt (a := w - n % w) (by omega)]

theorem rol_eq_rotateLeft {w : Nat} (x : BitVec w) (n : Nat) : rol x n = x.rotateLeft n := by
  rcases Nat.eq_zero_or_pos w with h | h
  · subst h; exact Subsingleton.elim _ _
  · have hn := Nat.mod_lt n h
    rw [rol, ror, BitVec.rotateLeft_def]
    rcases Nat.eq_zero_or_pos (n % w) with h0 | h0
    · have hz : x >>> w = 0 := by ext i hi; simp
      simp [h0, hz]
    · have e : (w - n % w) % w = w - n % w := Nat.mod_eq_of_lt (by omega)
      rw [e, e, show (w - (w - n % w)) % w = n % w by rw [Nat.sub_sub_self hn.le]; exact Nat.mod_eq_of_lt hn,
        BitVec.or_comm]

/-- A bit of a packed value: bit j of byte k / 8. -/
theorem getLsbD_packBytes (w n : Nat) (f : Nat → Byte) (k : Nat) :
    (packBytes w n f).getLsbD k = (decide (k < w) && decide (k < 8 * n) && (f (k / 8)).getLsbD (k % 8)) := by
  induction n with
  | zero => simp [packBytes]
  | succ n ih =>
    rw [packBytes, BitVec.getLsbD_or, ih, BitVec.getLsbD_shiftLeft, BitVec.getLsbD_setWidth]
    by_cases hw : k < w
    · by_cases h1 : k < 8 * n
      · simp [hw, h1]; intro; omega
      · by_cases h2 : k < 8 * (n + 1)
        · have hd : k / 8 = n := by omega
          have hm : k - 8 * n = k % 8 := by omega
          simp [hw, h1, h2, hd, hm]; omega
        · have : (f n).getLsbD (k - 8 * n) = false := BitVec.getLsbD_of_ge _ _ (by omega)
          simp [hw, h1, h2, this]
    · simp [hw]

/-- Reading back byte i of a packed value. -/
theorem byteAt_packBytes (w n : Nat) (f : Nat → Byte) (i : Nat) (hi : i < n) (hw : 8 * n ≤ w) :
    byteAt (packBytes w n f) i = f i := by
  ext j hj
  rw [byteAt, BitVec.getElem_extractLsb', getLsbD_packBytes]
  have h1 : 8 * i + j < w := by omega
  have h2 : 8 * i + j < 8 * n := by omega
  have h3 : (8 * i + j) / 8 = i := by omega
  have h4 : (8 * i + j) % 8 = j := by omega
  simp [h1, h2, h3, h4, BitVec.getLsbD_eq_getElem hj]

/-- A value is the packing of its bytes. -/
theorem packBytes_byteAt {w : Nat} (n : Nat) (v : BitVec w) (hw : w ≤ 8 * n) :
    packBytes w n (fun i => byteAt v i) = v := by
  ext k hk
  have h : 8 * (k / 8) + k % 8 = k := by omega
  rw [← BitVec.getLsbD_eq_getElem, getLsbD_packBytes, byteAt, BitVec.getLsbD_extractLsb', h]
  have h1 : k < 8 * n := by omega
  have h2 : k % 8 < 8 := by omega
  simp [hk, h1, h2]

/-- Two values with the same bytes are equal. -/
theorem eq_of_byteAt {w : Nat} (n : Nat) (v u : BitVec w) (hw : w ≤ 8 * n)
    (h : ∀ i < n, byteAt v i = byteAt u i) : v = u := by
  rw [← packBytes_byteAt n v hw, ← packBytes_byteAt n u hw]
  have : ∀ m ≤ n, packBytes w m (fun i => byteAt v i) = packBytes w m (fun i => byteAt u i) := by
    intro m hm
    induction m with
    | zero => rfl
    | succ m ih => rw [packBytes, packBytes, ih (by omega), h m (by omega)]
  exact this n le_rfl

theorem truncX_toNat (x : Xlen) (v : XWord) :
    (truncX x v).toNat = v.toNat % 2 ^ (match x with | .rv32 => 32 | .rv64 => 64) := by
  cases x
  · simp only [truncX, BitVec.toNat_setWidth]
    have : v.toNat % 2 ^ 32 < 2 ^ 32 := Nat.mod_lt _ (by norm_num)
    exact Nat.mod_eq_of_lt (by omega)
  · exact (Nat.mod_eq_of_lt v.isLt).symm

@[simp] theorem truncX_truncX (x : Xlen) (v : XWord) : truncX x (truncX x v) = truncX x v := by
  apply BitVec.eq_of_toNat_eq
  cases x <;> simp [truncX_toNat]

@[simp] theorem truncX_zero (x : Xlen) : truncX x 0#64 = 0#64 := by cases x <;> rfl

@[simp] theorem truncX_rv64 (v : XWord) : truncX .rv64 v = v := rfl

@[simp] theorem truncX_setWidth (x : Xlen) (r : Word) : truncX x (r.setWidth 64) = r.setWidth 64 := by
  cases x
  · simp [truncX]
  · rfl

@[simp] theorem truncX_result32 (x : Xlen) (r : Word) : truncX x (result32 x r) = result32 x r := by
  cases x
  · exact truncX_setWidth .rv32 r
  · rfl

end Sys2Proof.Machine
end

