-- ==== Sys2Proof/Laws/Encode.lean ====
section
/-!
SUPPORT. What the four instruction formats hold: the fixed bits under each row's mask, and each field read
back (30_encoding.md R27 to R30).
-/

namespace Sys2Proof.Laws

theorem encodeR_mask (f7 : BitVec 7) (f3 : BitVec 3) (rd rs1 rs2 : Reg) :
    encodeR f7 f3 rd rs1 rs2 &&& 0xFE00707F = encodeR f7 f3 0 0 0 := by
  have mask : (0xFE00707F : Word) =
      BitVec.allOnes 7 ++ 0#5 ++ 0#5 ++ BitVec.allOnes 3 ++ 0#5 ++ BitVec.allOnes 7 := by decide
  have parts : (f7 ++ rs2 ++ rs1 ++ f3 ++ rd ++ 0b0110011#7) &&&
      (BitVec.allOnes 7 ++ 0#5 ++ 0#5 ++ BitVec.allOnes 3 ++ 0#5 ++ BitVec.allOnes 7) =
      f7 ++ 0#5 ++ 0#5 ++ f3 ++ 0#5 ++ 0b0110011#7 := by
    simp only [BitVec.and_append, BitVec.and_allOnes, BitVec.and_zero]
  rw [mask]; exact parts

theorem encodeRbs_mask (f5 : BitVec 5) (rd rs1 rs2 : Reg) (bs : BitVec 2) :
    encodeRbs f5 rd rs1 rs2 bs &&& 0x3E00707F = encodeRbs f5 0 0 0 0 := by
  have mask : (0x3E00707F : Word) =
      0#2 ++ BitVec.allOnes 5 ++ 0#5 ++ 0#5 ++ BitVec.allOnes 3 ++ 0#5 ++ BitVec.allOnes 7 := by decide
  have parts : (bs ++ f5 ++ rs2 ++ rs1 ++ 0b000#3 ++ rd ++ 0b0110011#7) &&&
      (0#2 ++ BitVec.allOnes 5 ++ 0#5 ++ 0#5 ++ BitVec.allOnes 3 ++ 0#5 ++ BitVec.allOnes 7) =
      0#2 ++ f5 ++ 0#5 ++ 0#5 ++ 0b000#3 ++ 0#5 ++ 0b0110011#7 := by
    simp only [BitVec.and_append, BitVec.and_allOnes, BitVec.and_zero]
  rw [mask]; exact parts

theorem encodeIunary_mask (f12 : BitVec 12) (rd rs1 : Reg) :
    encodeIunary f12 rd rs1 &&& 0xFFF0707F = encodeIunary f12 0 0 := by
  have mask : (0xFFF0707F : Word) =
      BitVec.allOnes 12 ++ 0#5 ++ BitVec.allOnes 3 ++ 0#5 ++ BitVec.allOnes 7 := by decide
  have parts : (f12 ++ rs1 ++ 0b001#3 ++ rd ++ 0b0010011#7) &&&
      (BitVec.allOnes 12 ++ 0#5 ++ BitVec.allOnes 3 ++ 0#5 ++ BitVec.allOnes 7) =
      f12 ++ 0#5 ++ 0b001#3 ++ 0#5 ++ 0b0010011#7 := by
    simp only [BitVec.and_append, BitVec.and_allOnes, BitVec.and_zero]
  rw [mask]; exact parts

theorem encodeIrnum_mask (rd rs1 : Reg) (rnum : BitVec 4) :
    encodeIrnum rd rs1 rnum &&& 0xFF00707F = encodeIrnum 0 0 0 := by
  have mask : (0xFF00707F : Word) =
      BitVec.allOnes 8 ++ 0#4 ++ 0#5 ++ BitVec.allOnes 3 ++ 0#5 ++ BitVec.allOnes 7 := by decide
  have parts : (0b00110001#8 ++ rnum ++ rs1 ++ 0b001#3 ++ rd ++ 0b0010011#7) &&&
      (BitVec.allOnes 8 ++ 0#4 ++ 0#5 ++ BitVec.allOnes 3 ++ 0#5 ++ BitVec.allOnes 7) =
      0b00110001#8 ++ 0#4 ++ 0#5 ++ 0b001#3 ++ 0#5 ++ 0b0010011#7 := by
    simp only [BitVec.and_append, BitVec.and_allOnes, BitVec.and_zero]
  rw [mask]; exact parts

@[simp] theorem rdField_encodeR (f7 : BitVec 7) (f3 : BitVec 3) (rd rs1 rs2 : Reg) :
    rdField (encodeR f7 f3 rd rs1 rs2) = rd := by
  ext i hi
  simp only [rdField, encodeR, BitVec.getElem_extractLsb', BitVec.getLsbD_append]
  interval_cases i <;> simp

@[simp] theorem rs1Field_encodeR (f7 : BitVec 7) (f3 : BitVec 3) (rd rs1 rs2 : Reg) :
    rs1Field (encodeR f7 f3 rd rs1 rs2) = rs1 := by
  ext i hi
  simp only [rs1Field, encodeR, BitVec.getElem_extractLsb', BitVec.getLsbD_append]
  interval_cases i <;> simp

@[simp] theorem rs2Field_encodeR (f7 : BitVec 7) (f3 : BitVec 3) (rd rs1 rs2 : Reg) :
    rs2Field (encodeR f7 f3 rd rs1 rs2) = rs2 := by
  ext i hi
  simp only [rs2Field, encodeR, BitVec.getElem_extractLsb', BitVec.getLsbD_append]
  interval_cases i <;> simp

@[simp] theorem rdField_encodeRbs (f5 : BitVec 5) (rd rs1 rs2 : Reg) (bs : BitVec 2) :
    rdField (encodeRbs f5 rd rs1 rs2 bs) = rd := by
  ext i hi
  simp only [rdField, encodeRbs, BitVec.getElem_extractLsb', BitVec.getLsbD_append]
  interval_cases i <;> simp

@[simp] theorem rs1Field_encodeRbs (f5 : BitVec 5) (rd rs1 rs2 : Reg) (bs : BitVec 2) :
    rs1Field (encodeRbs f5 rd rs1 rs2 bs) = rs1 := by
  ext i hi
  simp only [rs1Field, encodeRbs, BitVec.getElem_extractLsb', BitVec.getLsbD_append]
  interval_cases i <;> simp

@[simp] theorem rs2Field_encodeRbs (f5 : BitVec 5) (rd rs1 rs2 : Reg) (bs : BitVec 2) :
    rs2Field (encodeRbs f5 rd rs1 rs2 bs) = rs2 := by
  ext i hi
  simp only [rs2Field, encodeRbs, BitVec.getElem_extractLsb', BitVec.getLsbD_append]
  interval_cases i <;> simp

@[simp] theorem bsField_encodeRbs (f5 : BitVec 5) (rd rs1 rs2 : Reg) (bs : BitVec 2) :
    bsField (encodeRbs f5 rd rs1 rs2 bs) = bs := by
  ext i hi
  simp only [bsField, encodeRbs, BitVec.getElem_extractLsb', BitVec.getLsbD_append]
  interval_cases i <;> simp

@[simp] theorem rdField_encodeIunary (f12 : BitVec 12) (rd rs1 : Reg) :
    rdField (encodeIunary f12 rd rs1) = rd := by
  ext i hi
  simp only [rdField, encodeIunary, BitVec.getElem_extractLsb', BitVec.getLsbD_append]
  interval_cases i <;> simp

@[simp] theorem rs1Field_encodeIunary (f12 : BitVec 12) (rd rs1 : Reg) :
    rs1Field (encodeIunary f12 rd rs1) = rs1 := by
  ext i hi
  simp only [rs1Field, encodeIunary, BitVec.getElem_extractLsb', BitVec.getLsbD_append]
  interval_cases i <;> simp

@[simp] theorem rdField_encodeIrnum (rd rs1 : Reg) (rnum : BitVec 4) :
    rdField (encodeIrnum rd rs1 rnum) = rd := by
  ext i hi
  simp only [rdField, encodeIrnum, BitVec.getElem_extractLsb', BitVec.getLsbD_append]
  interval_cases i <;> simp

@[simp] theorem rs1Field_encodeIrnum (rd rs1 : Reg) (rnum : BitVec 4) :
    rs1Field (encodeIrnum rd rs1 rnum) = rs1 := by
  ext i hi
  simp only [rs1Field, encodeIrnum, BitVec.getElem_extractLsb', BitVec.getLsbD_append]
  interval_cases i <;> simp

@[simp] theorem rnumField_encodeIrnum (rd rs1 : Reg) (rnum : BitVec 4) :
    rnumField (encodeIrnum rd rs1 rnum) = rnum := by
  ext i hi
  simp only [rnumField, encodeIrnum, BitVec.getElem_extractLsb', BitVec.getLsbD_append]
  interval_cases i <;> simp

/-- The decoder's legality check, over the opcode map, is the spec's list of exceptions. -/
theorem legalAt_eq_wellFormed (x : Xlen) (i : Instr) : legalAt x i = i.wellFormed x := by
  cases i with
  | aes64ks1i rd rs1 rnum =>
    have h : ∀ n : BitVec 4, (!(decide (n > 0xA))) = decide (n.toNat ≤ 0xA) := by decide
    cases x
    · rfl
    · exact h rnum
  | _ => cases x <;> rfl

end Sys2Proof.Laws
end

