-- ==== Sys2Proof/Laws/State.lean ====
section
/-!
SUPPORT. One lemma per field per update of State, so that no later proof unfolds a record update.
-/

namespace Sys2Proof.Machine

@[simp] theorem State.writeReg_xlen (s : State) (r : Reg) (v : XWord) :
    (s.writeReg r v).xlen = s.xlen := rfl

@[simp] theorem State.writeReg_hostModes (s : State) (r : Reg) (v : XWord) :
    (s.writeReg r v).hostModes = s.hostModes := rfl

@[simp] theorem State.writeReg_tvalIllegalBits (s : State) (r : Reg) (v : XWord) :
    (s.writeReg r v).tvalIllegalBits = s.tvalIllegalBits := rfl

@[simp] theorem State.writeReg_pc (s : State) (r : Reg) (v : XWord) :
    (s.writeReg r v).pc = s.pc := rfl

@[simp] theorem State.writeReg_mode (s : State) (r : Reg) (v : XWord) :
    (s.writeReg r v).mode = s.mode := rfl

@[simp] theorem State.writeReg_mstatus (s : State) (r : Reg) (v : XWord) :
    (s.writeReg r v).mstatus = s.mstatus := rfl

@[simp] theorem State.writeReg_mepc (s : State) (r : Reg) (v : XWord) :
    (s.writeReg r v).mepc = s.mepc := rfl

@[simp] theorem State.writeReg_mcause (s : State) (r : Reg) (v : XWord) :
    (s.writeReg r v).mcause = s.mcause := rfl

@[simp] theorem State.writeReg_mtval (s : State) (r : Reg) (v : XWord) :
    (s.writeReg r v).mtval = s.mtval := rfl

@[simp] theorem State.writeReg_mtvec (s : State) (r : Reg) (v : XWord) :
    (s.writeReg r v).mtvec = s.mtvec := rfl

@[simp] theorem State.writeReg_medeleg (s : State) (r : Reg) (v : XWord) :
    (s.writeReg r v).medeleg = s.medeleg := rfl

@[simp] theorem State.writeReg_sstatus (s : State) (r : Reg) (v : XWord) :
    (s.writeReg r v).sstatus = s.sstatus := rfl

@[simp] theorem State.writeReg_sepc (s : State) (r : Reg) (v : XWord) :
    (s.writeReg r v).sepc = s.sepc := rfl

@[simp] theorem State.writeReg_scause (s : State) (r : Reg) (v : XWord) :
    (s.writeReg r v).scause = s.scause := rfl

@[simp] theorem State.writeReg_stval (s : State) (r : Reg) (v : XWord) :
    (s.writeReg r v).stval = s.stval := rfl

@[simp] theorem State.writeReg_stvec (s : State) (r : Reg) (v : XWord) :
    (s.writeReg r v).stvec = s.stvec := rfl

@[simp] theorem State.writeReg_minstret (s : State) (r : Reg) (v : XWord) :
    (s.writeReg r v).minstret = s.minstret := rfl

@[simp] theorem State.writeReg_mem (s : State) (r : Reg) (v : XWord) :
    (s.writeReg r v).mem = s.mem := rfl

@[simp] theorem State.writePc_xlen (s : State) (v : XWord) :
    (s.writePc v).xlen = s.xlen := rfl

@[simp] theorem State.writePc_hostModes (s : State) (v : XWord) :
    (s.writePc v).hostModes = s.hostModes := rfl

@[simp] theorem State.writePc_tvalIllegalBits (s : State) (v : XWord) :
    (s.writePc v).tvalIllegalBits = s.tvalIllegalBits := rfl

@[simp] theorem State.writePc_x (s : State) (v : XWord) :
    (s.writePc v).x = s.x := rfl

@[simp] theorem State.writePc_pc (s : State) (v : XWord) :
    (s.writePc v).pc = truncX s.xlen v := rfl

@[simp] theorem State.writePc_mode (s : State) (v : XWord) :
    (s.writePc v).mode = s.mode := rfl

@[simp] theorem State.writePc_mstatus (s : State) (v : XWord) :
    (s.writePc v).mstatus = s.mstatus := rfl

@[simp] theorem State.writePc_mepc (s : State) (v : XWord) :
    (s.writePc v).mepc = s.mepc := rfl

@[simp] theorem State.writePc_mcause (s : State) (v : XWord) :
    (s.writePc v).mcause = s.mcause := rfl

@[simp] theorem State.writePc_mtval (s : State) (v : XWord) :
    (s.writePc v).mtval = s.mtval := rfl

@[simp] theorem State.writePc_mtvec (s : State) (v : XWord) :
    (s.writePc v).mtvec = s.mtvec := rfl

@[simp] theorem State.writePc_medeleg (s : State) (v : XWord) :
    (s.writePc v).medeleg = s.medeleg := rfl

@[simp] theorem State.writePc_sstatus (s : State) (v : XWord) :
    (s.writePc v).sstatus = s.sstatus := rfl

@[simp] theorem State.writePc_sepc (s : State) (v : XWord) :
    (s.writePc v).sepc = s.sepc := rfl

@[simp] theorem State.writePc_scause (s : State) (v : XWord) :
    (s.writePc v).scause = s.scause := rfl

@[simp] theorem State.writePc_stval (s : State) (v : XWord) :
    (s.writePc v).stval = s.stval := rfl

@[simp] theorem State.writePc_stvec (s : State) (v : XWord) :
    (s.writePc v).stvec = s.stvec := rfl

@[simp] theorem State.writePc_minstret (s : State) (v : XWord) :
    (s.writePc v).minstret = s.minstret := rfl

@[simp] theorem State.writePc_mem (s : State) (v : XWord) :
    (s.writePc v).mem = s.mem := rfl

@[simp] theorem State.countRetired_xlen (s : State) :
    s.countRetired.xlen = s.xlen := rfl

@[simp] theorem State.countRetired_hostModes (s : State) :
    s.countRetired.hostModes = s.hostModes := rfl

@[simp] theorem State.countRetired_tvalIllegalBits (s : State) :
    s.countRetired.tvalIllegalBits = s.tvalIllegalBits := rfl

@[simp] theorem State.countRetired_x (s : State) :
    s.countRetired.x = s.x := rfl

@[simp] theorem State.countRetired_pc (s : State) :
    s.countRetired.pc = s.pc := rfl

@[simp] theorem State.countRetired_mode (s : State) :
    s.countRetired.mode = s.mode := rfl

@[simp] theorem State.countRetired_mstatus (s : State) :
    s.countRetired.mstatus = s.mstatus := rfl

@[simp] theorem State.countRetired_mepc (s : State) :
    s.countRetired.mepc = s.mepc := rfl

@[simp] theorem State.countRetired_mcause (s : State) :
    s.countRetired.mcause = s.mcause := rfl

@[simp] theorem State.countRetired_mtval (s : State) :
    s.countRetired.mtval = s.mtval := rfl

@[simp] theorem State.countRetired_mtvec (s : State) :
    s.countRetired.mtvec = s.mtvec := rfl

@[simp] theorem State.countRetired_medeleg (s : State) :
    s.countRetired.medeleg = s.medeleg := rfl

@[simp] theorem State.countRetired_sstatus (s : State) :
    s.countRetired.sstatus = s.sstatus := rfl

@[simp] theorem State.countRetired_sepc (s : State) :
    s.countRetired.sepc = s.sepc := rfl

@[simp] theorem State.countRetired_scause (s : State) :
    s.countRetired.scause = s.scause := rfl

@[simp] theorem State.countRetired_stval (s : State) :
    s.countRetired.stval = s.stval := rfl

@[simp] theorem State.countRetired_stvec (s : State) :
    s.countRetired.stvec = s.stvec := rfl

@[simp] theorem State.countRetired_minstret (s : State) :
    s.countRetired.minstret = s.minstret + 1 := rfl

@[simp] theorem State.countRetired_mem (s : State) :
    s.countRetired.mem = s.mem := rfl

@[simp] theorem State.writeByte_xlen (s : State) (a : XWord) (v : Byte) :
    (s.writeByte a v).xlen = s.xlen := rfl

@[simp] theorem State.writeByte_hostModes (s : State) (a : XWord) (v : Byte) :
    (s.writeByte a v).hostModes = s.hostModes := rfl

@[simp] theorem State.writeByte_tvalIllegalBits (s : State) (a : XWord) (v : Byte) :
    (s.writeByte a v).tvalIllegalBits = s.tvalIllegalBits := rfl

@[simp] theorem State.writeByte_x (s : State) (a : XWord) (v : Byte) :
    (s.writeByte a v).x = s.x := rfl

@[simp] theorem State.writeByte_pc (s : State) (a : XWord) (v : Byte) :
    (s.writeByte a v).pc = s.pc := rfl

@[simp] theorem State.writeByte_mode (s : State) (a : XWord) (v : Byte) :
    (s.writeByte a v).mode = s.mode := rfl

@[simp] theorem State.writeByte_mstatus (s : State) (a : XWord) (v : Byte) :
    (s.writeByte a v).mstatus = s.mstatus := rfl

@[simp] theorem State.writeByte_mepc (s : State) (a : XWord) (v : Byte) :
    (s.writeByte a v).mepc = s.mepc := rfl

@[simp] theorem State.writeByte_mcause (s : State) (a : XWord) (v : Byte) :
    (s.writeByte a v).mcause = s.mcause := rfl

@[simp] theorem State.writeByte_mtval (s : State) (a : XWord) (v : Byte) :
    (s.writeByte a v).mtval = s.mtval := rfl

@[simp] theorem State.writeByte_mtvec (s : State) (a : XWord) (v : Byte) :
    (s.writeByte a v).mtvec = s.mtvec := rfl

@[simp] theorem State.writeByte_medeleg (s : State) (a : XWord) (v : Byte) :
    (s.writeByte a v).medeleg = s.medeleg := rfl

@[simp] theorem State.writeByte_sstatus (s : State) (a : XWord) (v : Byte) :
    (s.writeByte a v).sstatus = s.sstatus := rfl

@[simp] theorem State.writeByte_sepc (s : State) (a : XWord) (v : Byte) :
    (s.writeByte a v).sepc = s.sepc := rfl

@[simp] theorem State.writeByte_scause (s : State) (a : XWord) (v : Byte) :
    (s.writeByte a v).scause = s.scause := rfl

@[simp] theorem State.writeByte_stval (s : State) (a : XWord) (v : Byte) :
    (s.writeByte a v).stval = s.stval := rfl

@[simp] theorem State.writeByte_stvec (s : State) (a : XWord) (v : Byte) :
    (s.writeByte a v).stvec = s.stvec := rfl

@[simp] theorem State.writeByte_minstret (s : State) (a : XWord) (v : Byte) :
    (s.writeByte a v).minstret = s.minstret := rfl

@[simp] theorem State.writeByte_mem (s : State) (a : XWord) (v : Byte) :
    (s.writeByte a v).mem = cellPut s.mem (s.memKey a) v := rfl

@[simp] theorem State.retire_xlen (s : State) (r : Reg) (v : XWord) :
    (s.retire r v).xlen = s.xlen := rfl

@[simp] theorem State.retire_hostModes (s : State) (r : Reg) (v : XWord) :
    (s.retire r v).hostModes = s.hostModes := rfl

@[simp] theorem State.retire_tvalIllegalBits (s : State) (r : Reg) (v : XWord) :
    (s.retire r v).tvalIllegalBits = s.tvalIllegalBits := rfl

@[simp] theorem State.retire_x (s : State) (r : Reg) (v : XWord) :
    (s.retire r v).x = (s.writeReg r v).x := rfl

@[simp] theorem State.retire_pc (s : State) (r : Reg) (v : XWord) :
    (s.retire r v).pc = truncX s.xlen (s.readPc + 4) := rfl

@[simp] theorem State.retire_mode (s : State) (r : Reg) (v : XWord) :
    (s.retire r v).mode = s.mode := rfl

@[simp] theorem State.retire_mstatus (s : State) (r : Reg) (v : XWord) :
    (s.retire r v).mstatus = s.mstatus := rfl

@[simp] theorem State.retire_mepc (s : State) (r : Reg) (v : XWord) :
    (s.retire r v).mepc = s.mepc := rfl

@[simp] theorem State.retire_mcause (s : State) (r : Reg) (v : XWord) :
    (s.retire r v).mcause = s.mcause := rfl

@[simp] theorem State.retire_mtval (s : State) (r : Reg) (v : XWord) :
    (s.retire r v).mtval = s.mtval := rfl

@[simp] theorem State.retire_mtvec (s : State) (r : Reg) (v : XWord) :
    (s.retire r v).mtvec = s.mtvec := rfl

@[simp] theorem State.retire_medeleg (s : State) (r : Reg) (v : XWord) :
    (s.retire r v).medeleg = s.medeleg := rfl

@[simp] theorem State.retire_sstatus (s : State) (r : Reg) (v : XWord) :
    (s.retire r v).sstatus = s.sstatus := rfl

@[simp] theorem State.retire_sepc (s : State) (r : Reg) (v : XWord) :
    (s.retire r v).sepc = s.sepc := rfl

@[simp] theorem State.retire_scause (s : State) (r : Reg) (v : XWord) :
    (s.retire r v).scause = s.scause := rfl

@[simp] theorem State.retire_stval (s : State) (r : Reg) (v : XWord) :
    (s.retire r v).stval = s.stval := rfl

@[simp] theorem State.retire_stvec (s : State) (r : Reg) (v : XWord) :
    (s.retire r v).stvec = s.stvec := rfl

@[simp] theorem State.retire_minstret (s : State) (r : Reg) (v : XWord) :
    (s.retire r v).minstret = s.minstret + 1 := rfl

@[simp] theorem State.retire_mem (s : State) (r : Reg) (v : XWord) :
    (s.retire r v).mem = s.mem := rfl

@[simp] theorem State.enterM_xlen (s : State) (c : Nat) (v : XWord) :
    (s.enterM c v).xlen = s.xlen := rfl

@[simp] theorem State.enterM_hostModes (s : State) (c : Nat) (v : XWord) :
    (s.enterM c v).hostModes = s.hostModes := rfl

@[simp] theorem State.enterM_tvalIllegalBits (s : State) (c : Nat) (v : XWord) :
    (s.enterM c v).tvalIllegalBits = s.tvalIllegalBits := rfl

@[simp] theorem State.enterM_x (s : State) (c : Nat) (v : XWord) :
    (s.enterM c v).x = s.x := rfl

@[simp] theorem State.enterM_pc (s : State) (c : Nat) (v : XWord) :
    (s.enterM c v).pc = truncX s.xlen s.mtvec.base := rfl

@[simp] theorem State.enterM_mode (s : State) (c : Nat) (v : XWord) :
    (s.enterM c v).mode = .m := rfl

@[simp] theorem State.enterM_mstatus (s : State) (c : Nat) (v : XWord) :
    (s.enterM c v).mstatus = { mie := false, mpie := s.mstatus.mie, mpp := s.mode } := rfl

@[simp] theorem State.enterM_mepc (s : State) (c : Nat) (v : XWord) :
    (s.enterM c v).mepc = s.readPc := rfl

@[simp] theorem State.enterM_mcause (s : State) (c : Nat) (v : XWord) :
    (s.enterM c v).mcause = BitVec.ofNat 64 c := rfl

@[simp] theorem State.enterM_mtval (s : State) (c : Nat) (v : XWord) :
    (s.enterM c v).mtval = truncX s.xlen v := rfl

@[simp] theorem State.enterM_mtvec (s : State) (c : Nat) (v : XWord) :
    (s.enterM c v).mtvec = s.mtvec := rfl

@[simp] theorem State.enterM_medeleg (s : State) (c : Nat) (v : XWord) :
    (s.enterM c v).medeleg = s.medeleg := rfl

@[simp] theorem State.enterM_sstatus (s : State) (c : Nat) (v : XWord) :
    (s.enterM c v).sstatus = s.sstatus := rfl

@[simp] theorem State.enterM_sepc (s : State) (c : Nat) (v : XWord) :
    (s.enterM c v).sepc = s.sepc := rfl

@[simp] theorem State.enterM_scause (s : State) (c : Nat) (v : XWord) :
    (s.enterM c v).scause = s.scause := rfl

@[simp] theorem State.enterM_stval (s : State) (c : Nat) (v : XWord) :
    (s.enterM c v).stval = s.stval := rfl

@[simp] theorem State.enterM_stvec (s : State) (c : Nat) (v : XWord) :
    (s.enterM c v).stvec = s.stvec := rfl

@[simp] theorem State.enterM_minstret (s : State) (c : Nat) (v : XWord) :
    (s.enterM c v).minstret = s.minstret := rfl

@[simp] theorem State.enterM_mem (s : State) (c : Nat) (v : XWord) :
    (s.enterM c v).mem = s.mem := rfl

@[simp] theorem State.enterS_xlen (s : State) (c : Nat) (v : XWord) :
    (s.enterS c v).xlen = s.xlen := rfl

@[simp] theorem State.enterS_hostModes (s : State) (c : Nat) (v : XWord) :
    (s.enterS c v).hostModes = s.hostModes := rfl

@[simp] theorem State.enterS_tvalIllegalBits (s : State) (c : Nat) (v : XWord) :
    (s.enterS c v).tvalIllegalBits = s.tvalIllegalBits := rfl

@[simp] theorem State.enterS_x (s : State) (c : Nat) (v : XWord) :
    (s.enterS c v).x = s.x := rfl

@[simp] theorem State.enterS_pc (s : State) (c : Nat) (v : XWord) :
    (s.enterS c v).pc = truncX s.xlen s.stvec.base := rfl

@[simp] theorem State.enterS_mode (s : State) (c : Nat) (v : XWord) :
    (s.enterS c v).mode = .s := rfl

@[simp] theorem State.enterS_mstatus (s : State) (c : Nat) (v : XWord) :
    (s.enterS c v).mstatus = s.mstatus := rfl

@[simp] theorem State.enterS_mepc (s : State) (c : Nat) (v : XWord) :
    (s.enterS c v).mepc = s.mepc := rfl

@[simp] theorem State.enterS_mcause (s : State) (c : Nat) (v : XWord) :
    (s.enterS c v).mcause = s.mcause := rfl

@[simp] theorem State.enterS_mtval (s : State) (c : Nat) (v : XWord) :
    (s.enterS c v).mtval = s.mtval := rfl

@[simp] theorem State.enterS_mtvec (s : State) (c : Nat) (v : XWord) :
    (s.enterS c v).mtvec = s.mtvec := rfl

@[simp] theorem State.enterS_medeleg (s : State) (c : Nat) (v : XWord) :
    (s.enterS c v).medeleg = s.medeleg := rfl

@[simp] theorem State.enterS_sstatus (s : State) (c : Nat) (v : XWord) :
    (s.enterS c v).sstatus = { sie := false, spie := s.sstatus.sie, spp := s.mode } := rfl

@[simp] theorem State.enterS_sepc (s : State) (c : Nat) (v : XWord) :
    (s.enterS c v).sepc = s.readPc := rfl

@[simp] theorem State.enterS_scause (s : State) (c : Nat) (v : XWord) :
    (s.enterS c v).scause = BitVec.ofNat 64 c := rfl

@[simp] theorem State.enterS_stval (s : State) (c : Nat) (v : XWord) :
    (s.enterS c v).stval = truncX s.xlen v := rfl

@[simp] theorem State.enterS_stvec (s : State) (c : Nat) (v : XWord) :
    (s.enterS c v).stvec = s.stvec := rfl

@[simp] theorem State.enterS_minstret (s : State) (c : Nat) (v : XWord) :
    (s.enterS c v).minstret = s.minstret := rfl

@[simp] theorem State.enterS_mem (s : State) (c : Nat) (v : XWord) :
    (s.enterS c v).mem = s.mem := rfl

@[simp] theorem State.returnM_xlen (s : State) :
    s.returnM.xlen = s.xlen := rfl

@[simp] theorem State.returnM_hostModes (s : State) :
    s.returnM.hostModes = s.hostModes := rfl

@[simp] theorem State.returnM_tvalIllegalBits (s : State) :
    s.returnM.tvalIllegalBits = s.tvalIllegalBits := rfl

@[simp] theorem State.returnM_x (s : State) :
    s.returnM.x = s.x := rfl

@[simp] theorem State.returnM_pc (s : State) :
    s.returnM.pc = truncX s.xlen s.mepc := rfl

@[simp] theorem State.returnM_mode (s : State) :
    s.returnM.mode = s.mstatus.mpp := rfl

@[simp] theorem State.returnM_mstatus (s : State) :
    s.returnM.mstatus = { s.mstatus with mie := s.mstatus.mpie } := rfl

@[simp] theorem State.returnM_mepc (s : State) :
    s.returnM.mepc = s.mepc := rfl

@[simp] theorem State.returnM_mcause (s : State) :
    s.returnM.mcause = s.mcause := rfl

@[simp] theorem State.returnM_mtval (s : State) :
    s.returnM.mtval = s.mtval := rfl

@[simp] theorem State.returnM_mtvec (s : State) :
    s.returnM.mtvec = s.mtvec := rfl

@[simp] theorem State.returnM_medeleg (s : State) :
    s.returnM.medeleg = s.medeleg := rfl

@[simp] theorem State.returnM_sstatus (s : State) :
    s.returnM.sstatus = s.sstatus := rfl

@[simp] theorem State.returnM_sepc (s : State) :
    s.returnM.sepc = s.sepc := rfl

@[simp] theorem State.returnM_scause (s : State) :
    s.returnM.scause = s.scause := rfl

@[simp] theorem State.returnM_stval (s : State) :
    s.returnM.stval = s.stval := rfl

@[simp] theorem State.returnM_stvec (s : State) :
    s.returnM.stvec = s.stvec := rfl

@[simp] theorem State.returnM_minstret (s : State) :
    s.returnM.minstret = s.minstret := rfl

@[simp] theorem State.returnM_mem (s : State) :
    s.returnM.mem = s.mem := rfl

@[simp] theorem State.returnS_xlen (s : State) :
    s.returnS.xlen = s.xlen := rfl

@[simp] theorem State.returnS_hostModes (s : State) :
    s.returnS.hostModes = s.hostModes := rfl

@[simp] theorem State.returnS_tvalIllegalBits (s : State) :
    s.returnS.tvalIllegalBits = s.tvalIllegalBits := rfl

@[simp] theorem State.returnS_x (s : State) :
    s.returnS.x = s.x := rfl

@[simp] theorem State.returnS_pc (s : State) :
    s.returnS.pc = truncX s.xlen s.sepc := rfl

@[simp] theorem State.returnS_mode (s : State) :
    s.returnS.mode = s.sstatus.spp := rfl

@[simp] theorem State.returnS_mstatus (s : State) :
    s.returnS.mstatus = s.mstatus := rfl

@[simp] theorem State.returnS_mepc (s : State) :
    s.returnS.mepc = s.mepc := rfl

@[simp] theorem State.returnS_mcause (s : State) :
    s.returnS.mcause = s.mcause := rfl

@[simp] theorem State.returnS_mtval (s : State) :
    s.returnS.mtval = s.mtval := rfl

@[simp] theorem State.returnS_mtvec (s : State) :
    s.returnS.mtvec = s.mtvec := rfl

@[simp] theorem State.returnS_medeleg (s : State) :
    s.returnS.medeleg = s.medeleg := rfl

@[simp] theorem State.returnS_sstatus (s : State) :
    s.returnS.sstatus = { s.sstatus with sie := s.sstatus.spie } := rfl

@[simp] theorem State.returnS_sepc (s : State) :
    s.returnS.sepc = s.sepc := rfl

@[simp] theorem State.returnS_scause (s : State) :
    s.returnS.scause = s.scause := rfl

@[simp] theorem State.returnS_stval (s : State) :
    s.returnS.stval = s.stval := rfl

@[simp] theorem State.returnS_stvec (s : State) :
    s.returnS.stvec = s.stvec := rfl

@[simp] theorem State.returnS_minstret (s : State) :
    s.returnS.minstret = s.minstret := rfl

@[simp] theorem State.returnS_mem (s : State) :
    s.returnS.mem = s.mem := rfl

end Sys2Proof.Machine
end

