-- ==== Sys2Proof/Laws/Memory.lean ====
section
/-!
SUPPORT. Memory: every operation keeps the canonical form, a read after a write at the same address gives
the byte written, and a write leaves every other address alone.
-/

namespace Sys2Proof.Machine

/-- A byte read after a byte written. -/
theorem cellGet_cellPut (m : List Host.Cell) (a b : Nat) (v : Byte) :
    cellGet (cellPut m a v) b = if b = a then some v else cellGet m b := by
  induction m with
  | nil => simp [cellPut, cellGet]
  | cons c rest ih =>
    obtain ⟨k, u⟩ := c
    unfold cellPut
    split
    · simp [cellGet]
    · split
      · rename_i h; subst h; simp only [cellGet]; split <;> rfl
      · rename_i h1 h2
        by_cases hb : b = k
        · subst hb; simp only [cellGet, if_true]; rw [if_neg (by omega)]
        · simp [cellGet, hb, ih]

/-- Writing keeps every address from below a bound it starts above. -/
theorem memoryWf_cons_cellPut {k : Nat} {u : Byte} {m : List Host.Cell} {a : Nat} (v : Byte) (hk : k < a)
    (hm : Memory.wf ((k, u) :: m) = true) (hp : Memory.wf (cellPut m a v) = true) :
    Memory.wf ((k, u) :: cellPut m a v) = true := by
  cases m with
  | nil => simp [cellPut, Memory.wf, hk]
  | cons c rest =>
    obtain ⟨j, w⟩ := c
    simp only [Memory.wf, Bool.and_eq_true, decide_eq_true_eq] at hm
    revert hp
    unfold cellPut
    split
    · intro hp; simp [Memory.wf, hk] at *; exact hp
    · split
      · intro hp; simp [Memory.wf, hk, hp]
      · intro hp; simp [Memory.wf, hm.1, hp]

/-- Writing a byte keeps the canonical form. -/
theorem memoryWf_cellPut (m : List Host.Cell) (a : Nat) (v : Byte) (h : Memory.wf m = true) :
    Memory.wf (cellPut m a v) = true := by
  induction m with
  | nil => rfl
  | cons c rest ih =>
    obtain ⟨k, u⟩ := c
    have hrest : Memory.wf rest = true := by
      cases rest with
      | nil => rfl
      | cons d rest' => simp only [Memory.wf, Bool.and_eq_true] at h; exact h.2
    unfold cellPut
    split
    · rename_i hlt; simp [Memory.wf, hlt, h]
    · split
      · rename_i heq; subst heq
        cases rest with
        | nil => rfl
        | cons d rest' => simpa [Memory.wf] using h
      · exact memoryWf_cons_cellPut v (by omega) h (ih hrest)

/-- Writing a byte lists no address but those listed before and its own. -/
theorem mem_cellPut {m : List Host.Cell} {a : Nat} {v : Byte} {c : Host.Cell} (h : c ∈ cellPut m a v) :
    c = (a, v) ∨ c ∈ m := by
  induction m with
  | nil => left; simpa [cellPut] using h
  | cons d rest ih =>
    obtain ⟨k, u⟩ := d
    unfold cellPut at h
    split at h
    · simpa using h
    · split at h
      · rcases List.mem_cons.mp h with h | h
        · exact .inl h
        · exact .inr (List.mem_cons_of_mem _ h)
      · rcases List.mem_cons.mp h with h | h
        · exact .inr (h ▸ List.mem_cons_self)
        · exact (ih h).imp id (List.mem_cons_of_mem _)

/-- A byte of memory after a byte written, addresses compared as XLEN-bit numbers. -/
theorem readByte_writeByte (s : State) (a b : XWord) (v : Byte) :
    (s.writeByte a v).readByte b = if s.memKey b = s.memKey a then some v else s.readByte b :=
  cellGet_cellPut s.mem (s.memKey a) (s.memKey b) v

theorem writeByte_wf (s : State) (a : XWord) (v : Byte) (h : Memory.wf s.mem = true) :
    Memory.wf (s.writeByte a v).mem = true := memoryWf_cellPut _ _ _ h

/-- A store keeps the canonical form. -/
theorem memWrite_wf (n : Nat) (s : State) (a v : XWord) (h : Memory.wf s.mem = true) :
    Memory.wf (s.memWrite a n v).mem = true := by
  induction n generalizing s a v with
  | zero => exact h
  | succ n ih => exact ih _ _ _ (writeByte_wf s a _ h)

/-- A store changes nothing but memory. -/
theorem memWrite_mem (n : Nat) (s : State) (a v : XWord) :
    s.memWrite a n v = { s with mem := (s.memWrite a n v).mem } := by
  induction n generalizing s a v with
  | zero => rfl
  | succ n ih => exact (ih (s.writeByte a _) (a + 1) (v >>> 8)).trans rfl

/-- The machine after reset has its memory in canonical form. -/
theorem reset_mem_wf : Memory.wf State.reset.mem = true := rfl

end Sys2Proof.Machine
end

