-- ==== Sys2Proof/Laws/Ops.lean ====
section
/-!
SUPPORT. What each shared operation does, said once: register reads after writes, completing, taking
IllegalInstruction, and issuing.
-/

namespace Sys2Proof.Machine

@[simp] theorem readReg_zero (s : State) : s.readReg 0#5 = 0#64 := rfl

/-- A register read gives an XLEN-bit value. -/
@[simp] theorem truncX_readReg (s : State) (r : Reg) : truncX s.xlen (s.readReg r) = s.readReg r := by
  unfold State.readReg; split <;> simp

@[simp] theorem truncX_readPc (s : State) : truncX s.xlen s.readPc = s.readPc := truncX_truncX _ _

/-- A register read depends on x and xlen alone. -/
theorem readReg_congr {s t : State} (hx : t.x = s.x) (hl : t.xlen = s.xlen) (r : Reg) :
    t.readReg r = s.readReg r := by simp only [State.readReg, hx, hl]

/-- Reading any register after a write: the written one reads the value cut to XLEN bits, x[0] reads 0,
the others read as before. -/
theorem readReg_writeReg (s : State) (rd r : Reg) (v : XWord) :
    (s.writeReg rd v).readReg r = if r = rd ∧ r ≠ 0#5 then truncX s.xlen v else s.readReg r := by
  unfold State.readReg
  by_cases h0 : r = 0#5
  · simp [h0]
  · by_cases hd : r = rd
    · subst hd; simp [h0, State.writeReg]
    · have : rd.toNat ≠ r.toNat := fun h => hd (BitVec.eq_of_toNat_eq h.symm)
      by_cases hz : rd = 0#5
      · subst hz; simp [h0, State.writeReg]
      · simp [h0, hd, hz, State.writeReg, this]

/-- A memory read depends on mem and xlen alone. -/
theorem readByte_congr {s t : State} (hm : t.mem = s.mem) (hl : t.xlen = s.xlen) (a : XWord) :
    t.readByte a = s.readByte a := by simp only [State.readByte, State.memKey, hm, hl]

/-- A load depends on mem and xlen alone. -/
theorem memRead_congr {s t : State} (hm : t.mem = s.mem) (hl : t.xlen = s.xlen) (n : Nat) (a : XWord) :
    t.memRead a n = s.memRead a n := by
  induction n generalizing a with
  | zero => rfl
  | succ n ih => simp only [State.memRead, ih, readByte_congr hm hl]

/-- A fetch depends on mem, xlen and the pc alone. -/
theorem fetchWord_congr {s t : State} (hm : t.mem = s.mem) (hl : t.xlen = s.xlen) (hp : t.readPc = s.readPc) :
    t.fetchWord = s.fetchWord := by simp only [State.fetchWord, hp, memRead_congr hm hl]

theorem truncX_toNat_bits (x : Xlen) (v : XWord) : (truncX x v).toNat = v.toNat % 2 ^ xlenBits x := by
  cases x <;> exact truncX_toNat _ v

theorem truncX_eq_of_fits {x : Xlen} {v : XWord} (h : FitsXlen x v) : truncX x v = v :=
  BitVec.eq_of_toNat_eq (by rw [truncX_toNat_bits]; exact Nat.mod_eq_of_lt h)

theorem fits_truncX (x : Xlen) (v : XWord) : FitsXlen x (truncX x v) := by
  rw [FitsXlen, truncX_toNat_bits]; exact Nat.mod_lt _ (by positivity)

theorem wordResult_eq_result32 (x : Xlen) (r : Word) : wordResult x r = result32 x r := by cases x <;> rfl

/-- The pc after an instruction completed. -/
theorem retire_readPc (s : State) (rd : Reg) (v : XWord) :
    (s.retire rd v).readPc.toNat = (s.readPc.toNat + 4) % 2 ^ xlenBits s.xlen := by
  simp only [State.readPc, State.retire_pc, State.retire_xlen, truncX_truncX, truncX_toNat_bits,
    BitVec.toNat_add]
  cases s.xlen <;> simp [xlenBits]

/-- Completing has exactly the effect and the frame the spec gives it. -/
theorem retire_retiredInto (s : State) (rd : Reg) (v : XWord) (hv : truncX s.xlen v = v) :
    RetiredInto s rd v (s.retire rd v) where
  regs r := by
    rw [show (s.retire rd v).readReg r = (s.writeReg rd v).readReg r from readReg_congr rfl rfl r,
      readReg_writeReg, hv]
  pc := retire_readPc s rd v
  minstret := rfl
  mode := rfl
  host := ⟨rfl, rfl, rfl, rfl, rfl, rfl⟩
  mTrap := ⟨rfl, rfl, rfl, rfl⟩
  sTrap := ⟨rfl, rfl, rfl, rfl⟩
  mem a := rfl

theorem illegalGoesToS_iff (s : State) : IllegalGoesToS s ↔ s.delegates illegalInstructionCode = true := by
  unfold IllegalGoesToS State.delegates illegalInstructionCode
  cases s.mode <;> simp

theorem truncX_illegalTval (s : State) (bits : Word) :
    truncX s.xlen (if s.tvalIllegalBits then bits.setWidth 64 else 0#64) = illegalTval s bits := by
  unfold illegalTval; split <;> simp

theorem tvalHolds_illegalTval (s : State) (bits : Word) : TvalHolds s bits (illegalTval s bits) := by
  unfold TvalHolds illegalTval; cases s.tvalIllegalBits <;> simp

/-- What trap entry writes there. -/
theorem tvalHolds_written (s : State) (bits : Word) :
    TvalHolds s bits (truncX s.xlen (if s.tvalIllegalBits then bits.setWidth 64 else 0#64)) := by
  rw [truncX_illegalTval]; exact tvalHolds_illegalTval s bits

/-- Where an exception enters S-mode, and where M-mode. -/
theorem takeException_of_delegates {s : State} {code : Nat} (h : s.delegates code = true) (tval : XWord) :
    s.takeException code tval = s.enterS code tval := if_pos h

theorem takeException_of_not_delegates {s : State} {code : Nat} (h : s.delegates code = false) (tval : XWord) :
    s.takeException code tval = s.enterM code tval := if_neg (by simp [h])

/-- Raising IllegalInstruction has exactly the effect and the frame the spec gives it. -/
theorem raiseIllegal_tookIllegal (s : State) (bits : Word) : TookIllegal s bits (s.raiseIllegal bits) := by
  have h := illegalGoesToS_iff s
  by_cases hd : s.delegates illegalInstructionCode = true
  · have e : s.raiseIllegal bits = s.enterS illegalInstructionCode
        (if s.tvalIllegalBits then bits.setWidth 64 else 0#64) := by
      simp [State.raiseIllegal, State.takeException, hd]
    rw [e]
    exact
      { toS := fun _ => ⟨rfl, rfl, tvalHolds_written s bits, rfl, rfl, rfl, rfl, by simp [State.readPc],
          ⟨rfl, rfl, rfl, rfl⟩⟩
        toM := fun hn => absurd (h.mpr hd) hn
        regs := fun r => rfl
        minstret := rfl
        host := ⟨rfl, rfl, rfl, rfl, rfl, rfl⟩
        mem := fun a => rfl }
  · have e : s.raiseIllegal bits = s.enterM illegalInstructionCode
        (if s.tvalIllegalBits then bits.setWidth 64 else 0#64) := by
      simp [State.raiseIllegal, State.takeException, hd]
    rw [e]
    exact
      { toS := fun hs => absurd (h.mp hs) hd
        toM := fun _ => ⟨rfl, rfl, tvalHolds_written s bits, rfl, rfl, rfl, rfl, by simp [State.readPc],
          ⟨rfl, rfl, rfl, rfl⟩⟩
        regs := fun r => rfl
        minstret := rfl
        host := ⟨rfl, rfl, rfl, rfl, rfl, rfl⟩
        mem := fun a => rfl }

/-- The two ways an instruction of the block ends. -/
theorem issue_cases (s : State) (i : Instr) (rd : Reg) (v : XWord) :
    (i.wellFormed s.xlen = true ∧ s.issue i rd v = .next (s.retire rd v)) ∨
    (i.wellFormed s.xlen = false ∧ s.issue i rd v = .next (s.raiseIllegal (encode i))) := by
  unfold State.issue
  rw [Laws.legalAt_eq_wellFormed]
  cases i.wellFormed s.xlen <;> simp

theorem issue_of_wellFormed {s : State} {i : Instr} (h : i.wellFormed s.xlen = true) (rd : Reg) (v : XWord) :
    s.issue i rd v = .next (s.retire rd v) := by
  simp [State.issue, Laws.legalAt_eq_wellFormed, h]

theorem issue_of_not_wellFormed {s : State} {i : Instr} (h : i.wellFormed s.xlen = false) (rd : Reg)
    (v : XWord) : s.issue i rd v = .next (s.raiseIllegal (encode i)) := by
  simp [State.issue, Laws.legalAt_eq_wellFormed, h]

end Sys2Proof.Machine
end

