-- ==== Sys2Proof/Laws/PerInstr.lean ====
section
/-!
SUPPORT. Statements made for each instruction: its word has the fixed bits of its row of the opcode map,
and the row's fields read from it are the instruction's.
-/

namespace Sys2Proof.Laws.EncodeMatch

/-- The row of the instruction's operation selects its word, and reads the instruction back from it. -/
def Statement (i : Instr) : Prop :=
  ∃ r ∈ opcodeRows, r.op = i.op ∧ r.selects (encode i) = true ∧ instrOf r.op (encode i) = i

/-- The selection test, from the masked word. -/
theorem selects_of_mask {r : OpcodeRow} {w : Word} (h : w &&& r.mask = r.mtch) : r.selects w = true := by
  simp [OpcodeRow.selects, h]

theorem clmul (rd rs1 rs2 : Reg) : Statement (.clmul rd rs1 rs2) :=
  ⟨⟨.clmul, 0x0A001033, 0xFE00707F⟩, by simp [opcodeRows], rfl,
    selects_of_mask ((encodeR_mask _ _ _ _ _).trans (by decide)), by simp [instrOf, encode]⟩

theorem clmulh (rd rs1 rs2 : Reg) : Statement (.clmulh rd rs1 rs2) :=
  ⟨⟨.clmulh, 0x0A003033, 0xFE00707F⟩, by simp [opcodeRows], rfl,
    selects_of_mask ((encodeR_mask _ _ _ _ _).trans (by decide)), by simp [instrOf, encode]⟩

theorem aes32esi (rd rs1 rs2 : Reg) (bs : BitVec 2) : Statement (.aes32esi rd rs1 rs2 bs) :=
  ⟨⟨.aes32esi, 0x22000033, 0x3E00707F⟩, by simp [opcodeRows], rfl,
    selects_of_mask ((encodeRbs_mask _ _ _ _ _).trans (by decide)), by simp [instrOf, encode]⟩

theorem aes32esmi (rd rs1 rs2 : Reg) (bs : BitVec 2) : Statement (.aes32esmi rd rs1 rs2 bs) :=
  ⟨⟨.aes32esmi, 0x26000033, 0x3E00707F⟩, by simp [opcodeRows], rfl,
    selects_of_mask ((encodeRbs_mask _ _ _ _ _).trans (by decide)), by simp [instrOf, encode]⟩

theorem aes32dsi (rd rs1 rs2 : Reg) (bs : BitVec 2) : Statement (.aes32dsi rd rs1 rs2 bs) :=
  ⟨⟨.aes32dsi, 0x2A000033, 0x3E00707F⟩, by simp [opcodeRows], rfl,
    selects_of_mask ((encodeRbs_mask _ _ _ _ _).trans (by decide)), by simp [instrOf, encode]⟩

theorem aes32dsmi (rd rs1 rs2 : Reg) (bs : BitVec 2) : Statement (.aes32dsmi rd rs1 rs2 bs) :=
  ⟨⟨.aes32dsmi, 0x2E000033, 0x3E00707F⟩, by simp [opcodeRows], rfl,
    selects_of_mask ((encodeRbs_mask _ _ _ _ _).trans (by decide)), by simp [instrOf, encode]⟩

theorem aes64es (rd rs1 rs2 : Reg) : Statement (.aes64es rd rs1 rs2) :=
  ⟨⟨.aes64es, 0x32000033, 0xFE00707F⟩, by simp [opcodeRows], rfl,
    selects_of_mask ((encodeR_mask _ _ _ _ _).trans (by decide)), by simp [instrOf, encode]⟩

theorem aes64esm (rd rs1 rs2 : Reg) : Statement (.aes64esm rd rs1 rs2) :=
  ⟨⟨.aes64esm, 0x36000033, 0xFE00707F⟩, by simp [opcodeRows], rfl,
    selects_of_mask ((encodeR_mask _ _ _ _ _).trans (by decide)), by simp [instrOf, encode]⟩

theorem aes64ds (rd rs1 rs2 : Reg) : Statement (.aes64ds rd rs1 rs2) :=
  ⟨⟨.aes64ds, 0x3A000033, 0xFE00707F⟩, by simp [opcodeRows], rfl,
    selects_of_mask ((encodeR_mask _ _ _ _ _).trans (by decide)), by simp [instrOf, encode]⟩

theorem aes64dsm (rd rs1 rs2 : Reg) : Statement (.aes64dsm rd rs1 rs2) :=
  ⟨⟨.aes64dsm, 0x3E000033, 0xFE00707F⟩, by simp [opcodeRows], rfl,
    selects_of_mask ((encodeR_mask _ _ _ _ _).trans (by decide)), by simp [instrOf, encode]⟩

theorem aes64im (rd rs1 : Reg) : Statement (.aes64im rd rs1) :=
  ⟨⟨.aes64im, 0x30001013, 0xFFF0707F⟩, by simp [opcodeRows], rfl,
    selects_of_mask ((encodeIunary_mask _ _ _).trans (by decide)), by simp [instrOf, encode]⟩

theorem aes64ks1i (rd rs1 : Reg) (rnum : BitVec 4) : Statement (.aes64ks1i rd rs1 rnum) :=
  ⟨⟨.aes64ks1i, 0x31001013, 0xFF00707F⟩, by simp [opcodeRows], rfl,
    selects_of_mask ((encodeIrnum_mask _ _ _).trans (by decide)), by simp [instrOf, encode]⟩

theorem aes64ks2 (rd rs1 rs2 : Reg) : Statement (.aes64ks2 rd rs1 rs2) :=
  ⟨⟨.aes64ks2, 0x7E000033, 0xFE00707F⟩, by simp [opcodeRows], rfl,
    selects_of_mask ((encodeR_mask _ _ _ _ _).trans (by decide)), by simp [instrOf, encode]⟩

theorem sha256sig0 (rd rs1 : Reg) : Statement (.sha256sig0 rd rs1) :=
  ⟨⟨.sha256sig0, 0x10201013, 0xFFF0707F⟩, by simp [opcodeRows], rfl,
    selects_of_mask ((encodeIunary_mask _ _ _).trans (by decide)), by simp [instrOf, encode]⟩

theorem sha256sig1 (rd rs1 : Reg) : Statement (.sha256sig1 rd rs1) :=
  ⟨⟨.sha256sig1, 0x10301013, 0xFFF0707F⟩, by simp [opcodeRows], rfl,
    selects_of_mask ((encodeIunary_mask _ _ _).trans (by decide)), by simp [instrOf, encode]⟩

theorem sha256sum0 (rd rs1 : Reg) : Statement (.sha256sum0 rd rs1) :=
  ⟨⟨.sha256sum0, 0x10001013, 0xFFF0707F⟩, by simp [opcodeRows], rfl,
    selects_of_mask ((encodeIunary_mask _ _ _).trans (by decide)), by simp [instrOf, encode]⟩

theorem sha256sum1 (rd rs1 : Reg) : Statement (.sha256sum1 rd rs1) :=
  ⟨⟨.sha256sum1, 0x10101013, 0xFFF0707F⟩, by simp [opcodeRows], rfl,
    selects_of_mask ((encodeIunary_mask _ _ _).trans (by decide)), by simp [instrOf, encode]⟩

theorem sha512sig0 (rd rs1 : Reg) : Statement (.sha512sig0 rd rs1) :=
  ⟨⟨.sha512sig0, 0x10601013, 0xFFF0707F⟩, by simp [opcodeRows], rfl,
    selects_of_mask ((encodeIunary_mask _ _ _).trans (by decide)), by simp [instrOf, encode]⟩

theorem sha512sig1 (rd rs1 : Reg) : Statement (.sha512sig1 rd rs1) :=
  ⟨⟨.sha512sig1, 0x10701013, 0xFFF0707F⟩, by simp [opcodeRows], rfl,
    selects_of_mask ((encodeIunary_mask _ _ _).trans (by decide)), by simp [instrOf, encode]⟩

theorem sha512sum0 (rd rs1 : Reg) : Statement (.sha512sum0 rd rs1) :=
  ⟨⟨.sha512sum0, 0x10401013, 0xFFF0707F⟩, by simp [opcodeRows], rfl,
    selects_of_mask ((encodeIunary_mask _ _ _).trans (by decide)), by simp [instrOf, encode]⟩

theorem sha512sum1 (rd rs1 : Reg) : Statement (.sha512sum1 rd rs1) :=
  ⟨⟨.sha512sum1, 0x10501013, 0xFFF0707F⟩, by simp [opcodeRows], rfl,
    selects_of_mask ((encodeIunary_mask _ _ _).trans (by decide)), by simp [instrOf, encode]⟩

theorem sha512sig0h (rd rs1 rs2 : Reg) : Statement (.sha512sig0h rd rs1 rs2) :=
  ⟨⟨.sha512sig0h, 0x5C000033, 0xFE00707F⟩, by simp [opcodeRows], rfl,
    selects_of_mask ((encodeR_mask _ _ _ _ _).trans (by decide)), by simp [instrOf, encode]⟩

theorem sha512sig0l (rd rs1 rs2 : Reg) : Statement (.sha512sig0l rd rs1 rs2) :=
  ⟨⟨.sha512sig0l, 0x54000033, 0xFE00707F⟩, by simp [opcodeRows], rfl,
    selects_of_mask ((encodeR_mask _ _ _ _ _).trans (by decide)), by simp [instrOf, encode]⟩

theorem sha512sig1h (rd rs1 rs2 : Reg) : Statement (.sha512sig1h rd rs1 rs2) :=
  ⟨⟨.sha512sig1h, 0x5E000033, 0xFE00707F⟩, by simp [opcodeRows], rfl,
    selects_of_mask ((encodeR_mask _ _ _ _ _).trans (by decide)), by simp [instrOf, encode]⟩

theorem sha512sig1l (rd rs1 rs2 : Reg) : Statement (.sha512sig1l rd rs1 rs2) :=
  ⟨⟨.sha512sig1l, 0x56000033, 0xFE00707F⟩, by simp [opcodeRows], rfl,
    selects_of_mask ((encodeR_mask _ _ _ _ _).trans (by decide)), by simp [instrOf, encode]⟩

theorem sha512sum0r (rd rs1 rs2 : Reg) : Statement (.sha512sum0r rd rs1 rs2) :=
  ⟨⟨.sha512sum0r, 0x50000033, 0xFE00707F⟩, by simp [opcodeRows], rfl,
    selects_of_mask ((encodeR_mask _ _ _ _ _).trans (by decide)), by simp [instrOf, encode]⟩

theorem sha512sum1r (rd rs1 rs2 : Reg) : Statement (.sha512sum1r rd rs1 rs2) :=
  ⟨⟨.sha512sum1r, 0x52000033, 0xFE00707F⟩, by simp [opcodeRows], rfl,
    selects_of_mask ((encodeR_mask _ _ _ _ _).trans (by decide)), by simp [instrOf, encode]⟩

theorem sm3p0 (rd rs1 : Reg) : Statement (.sm3p0 rd rs1) :=
  ⟨⟨.sm3p0, 0x10801013, 0xFFF0707F⟩, by simp [opcodeRows], rfl,
    selects_of_mask ((encodeIunary_mask _ _ _).trans (by decide)), by simp [instrOf, encode]⟩

theorem sm3p1 (rd rs1 : Reg) : Statement (.sm3p1 rd rs1) :=
  ⟨⟨.sm3p1, 0x10901013, 0xFFF0707F⟩, by simp [opcodeRows], rfl,
    selects_of_mask ((encodeIunary_mask _ _ _).trans (by decide)), by simp [instrOf, encode]⟩

theorem sm4ed (rd rs1 rs2 : Reg) (bs : BitVec 2) : Statement (.sm4ed rd rs1 rs2 bs) :=
  ⟨⟨.sm4ed, 0x30000033, 0x3E00707F⟩, by simp [opcodeRows], rfl,
    selects_of_mask ((encodeRbs_mask _ _ _ _ _).trans (by decide)), by simp [instrOf, encode]⟩

theorem sm4ks (rd rs1 rs2 : Reg) (bs : BitVec 2) : Statement (.sm4ks rd rs1 rs2 bs) :=
  ⟨⟨.sm4ks, 0x34000033, 0x3E00707F⟩, by simp [opcodeRows], rfl,
    selects_of_mask ((encodeRbs_mask _ _ _ _ _).trans (by decide)), by simp [instrOf, encode]⟩

end Sys2Proof.Laws.EncodeMatch
end

