-- ==== Sys2Proof/Laws/Step.lean ====
section
/-!
SUPPORT. What an instruction and a step can do, said once; later proofs cite these and unfold neither.
-/

namespace Sys2Proof.Machine

/-- Every instruction issues itself, for its destination, with one value. -/
theorem exec_eq_issue (i : Instr) (s : State) : ∃ v, exec i s = s.issue i (destReg i) v := by
  cases i <;> exact ⟨_, rfl⟩

/-- The value is an XLEN-bit one wherever the instruction is well formed. -/
theorem exec_eq_issue_fits {i : Instr} {s : State} (hw : i.wellFormed s.xlen = true) :
    ∃ v, exec i s = s.issue i (destReg i) v ∧ truncX s.xlen v = v := by
  cases i
  all_goals try (refine ⟨_, rfl, ?_⟩; simp only [truncX_result32, truncX_setWidth])
  all_goals refine ⟨_, rfl, ?_⟩
  all_goals cases h : s.xlen <;> simp_all [truncX, Instr.wellFormed, Instr.existsAt, clmulResult, clmulhResult]

/-- Every instruction answers a next state: it completed, if it is well formed at the XLEN, and else it
raised IllegalInstruction with its word. -/
theorem exec_cases (i : Instr) (s : State) :
    (i.wellFormed s.xlen = true ∧ ∃ v, exec i s = .next (s.retire (destReg i) v)) ∨
    (i.wellFormed s.xlen = false ∧ exec i s = .next (s.raiseIllegal (encode i))) := by
  obtain ⟨v, hv⟩ := exec_eq_issue i s
  rcases issue_cases s i (destReg i) v with ⟨hw, h⟩ | ⟨hw, h⟩
  · exact .inl ⟨hw, v, hv.trans h⟩
  · exact .inr ⟨hw, hv.trans h⟩

/-- How a completion is shown: the instruction issues itself with an XLEN-bit value and is well formed. -/
theorem completesWith_of_issue {i : Instr} {s : State} {rd : Reg} {v : XWord} (h : exec i s = s.issue i rd v)
    (hw : i.wellFormed s.xlen = true) (hv : truncX s.xlen v = v) : CompletesWith i s rd v :=
  ⟨_, h.trans (issue_of_wellFormed hw rd v), retire_retiredInto s rd v hv⟩

/-- What a step that answers a next state did: it ran the decoded instruction, or it raised
IllegalInstruction for the fetched word. -/
theorem step_next_cases {s t : State} (h : step s = .next t) :
    ∃ w, s.fetchWord = .ok w ∧
      ((∃ i, decode s.xlen w = .instr i ∧ exec i s = .next t) ∨
       (decode s.xlen w = .illegal w ∧ t = s.raiseIllegal w)) := by
  unfold step at h
  split at h
  · cases h
  · rename_i w hw
    refine ⟨w, hw, ?_⟩
    split at h
    · rename_i i hi; exact .inl ⟨i, hi, h⟩
    · rename_i bits hb
      have : bits = w := by
        unfold decode at hb
        split at hb
        · cases hb
        · split at hb
          · cases hb
          · injection hb with hb; exact hb.symm
      subst this
      injection h with h
      exact .inr ⟨hb, h.symm⟩
    · cases h

end Sys2Proof.Machine
end

