-- ==== Sys2Proof/Tests/Slice0.lean ====
section
/-!
SUPPORT. The model's own tests. Expected values are the spec's: its encoding tables, its test vectors V<n>
and its programs (95_test_vectors.md); each theorem's comment names the source. The last part shows, for
every statement of Certificates/Slice0 that has hypotheses, a concrete case that meets them.
-/

namespace Sys2Proof.Tests

open Sys2Proof Sys2Proof.Machine

/-! ### Helpers -/

/-- A state at this XLEN with x[11] and x[12] set. -/
def regs (x : Xlen) (a b : XWord) : State := (({ State.reset with xlen := x } : State).writeReg 11 a).writeReg 12 b

/-- A state at this XLEN with the word placed at its pc. -/
def atWord (x : Xlen) (w : Word) : State := ({ State.reset with xlen := x } : State).withFetchWord 32 w.toNat

/-- The same state in U-mode with IllegalInstruction sent to S-mode, whose vector is 0x2000. -/
def atWordUser (x : Xlen) (w : Word) : State :=
  { atWord x w with mode := .u, medeleg := 4, stvec := { base := 0x2000, vectored := true } }

/-- One field of the next state, where there is one. -/
def after {α : Type} (o : Host.Outcome State Fault Refusal) (f : State → α) : Option α :=
  match o with
  | .next t => some (f t)
  | .fault _ => none
  | .refused _ => none

/-- What x[10] holds after the instruction. -/
def x10 (i : Instr) (s : State) : Option XWord := after (exec i s) (·.readReg 10)

/-- The next state, or the state itself where there is none. -/
def nextOf (o : Host.Outcome State Fault Refusal) (s : State) : State :=
  match o with
  | .next t => t
  | .fault _ => s
  | .refused _ => s

/-! ### Well-formedness: an ill-formed term for each check, which the check refuses -/

/-- An RV32-only instruction at XLEN 64 (30_encoding.md R32). -/
theorem test_wf_refuses_rv32_only : (Instr.aes32esi 1 2 3 0).wellFormed .rv64 = false := by decide

/-- An RV64-only instruction at XLEN 32 (30_encoding.md R32). -/
theorem test_wf_refuses_rv64_only : (Instr.aes64es 1 2 3).wellFormed .rv32 = false := by decide

/-- The first reserved round number (30_encoding.md R34), and the last legal one. -/
theorem test_wf_refuses_rnum_11 : (Instr.aes64ks1i 1 2 11).wellFormed .rv64 = false ∧
    (Instr.aes64ks1i 1 2 10).wellFormed .rv64 = true := by decide

/-! ### Decoding: one word for every constructor, written out from the tables of 30_encoding.md R27 to R32,
with rd = x10, rs1 = x11, rs2 = x12, bs = 3, rnum = 10 -/

theorem test_decode_clmul :
    decode .rv64 (0b0000101#7 ++ 0b01100#5 ++ 0b01011#5 ++ 0b001#3 ++ 0b01010#5 ++ 0b0110011#7) = .instr (.clmul 10 11 12) ∧
    decode .rv64 (0b0000101#7 ++ 0b01100#5 ++ 0b01011#5 ++ 0b011#3 ++ 0b01010#5 ++ 0b0110011#7) = .instr (.clmulh 10 11 12) := by decide

theorem test_decode_aes32 :
    decode .rv32 (0b11#2 ++ 0b10001#5 ++ 0b01100#5 ++ 0b01011#5 ++ 0b000#3 ++ 0b01010#5 ++ 0b0110011#7) = .instr (.aes32esi 10 11 12 3) ∧
    decode .rv32 (0b11#2 ++ 0b10011#5 ++ 0b01100#5 ++ 0b01011#5 ++ 0b000#3 ++ 0b01010#5 ++ 0b0110011#7) = .instr (.aes32esmi 10 11 12 3) ∧
    decode .rv32 (0b11#2 ++ 0b10101#5 ++ 0b01100#5 ++ 0b01011#5 ++ 0b000#3 ++ 0b01010#5 ++ 0b0110011#7) = .instr (.aes32dsi 10 11 12 3) ∧
    decode .rv32 (0b11#2 ++ 0b10111#5 ++ 0b01100#5 ++ 0b01011#5 ++ 0b000#3 ++ 0b01010#5 ++ 0b0110011#7) = .instr (.aes32dsmi 10 11 12 3) := by decide

theorem test_decode_aes64 :
    decode .rv64 (0b0011001#7 ++ 0b01100#5 ++ 0b01011#5 ++ 0b000#3 ++ 0b01010#5 ++ 0b0110011#7) = .instr (.aes64es 10 11 12) ∧
    decode .rv64 (0b0011011#7 ++ 0b01100#5 ++ 0b01011#5 ++ 0b000#3 ++ 0b01010#5 ++ 0b0110011#7) = .instr (.aes64esm 10 11 12) ∧
    decode .rv64 (0b0011101#7 ++ 0b01100#5 ++ 0b01011#5 ++ 0b000#3 ++ 0b01010#5 ++ 0b0110011#7) = .instr (.aes64ds 10 11 12) ∧
    decode .rv64 (0b0011111#7 ++ 0b01100#5 ++ 0b01011#5 ++ 0b000#3 ++ 0b01010#5 ++ 0b0110011#7) = .instr (.aes64dsm 10 11 12) ∧
    decode .rv64 (0b001100000000#12 ++ 0b01011#5 ++ 0b001#3 ++ 0b01010#5 ++ 0b0010011#7) = .instr (.aes64im 10 11) ∧
    decode .rv64 (0b00110001#8 ++ 0b1010#4 ++ 0b01011#5 ++ 0b001#3 ++ 0b01010#5 ++ 0b0010011#7) = .instr (.aes64ks1i 10 11 10) ∧
    decode .rv64 (0b0111111#7 ++ 0b01100#5 ++ 0b01011#5 ++ 0b000#3 ++ 0b01010#5 ++ 0b0110011#7) = .instr (.aes64ks2 10 11 12) := by decide

theorem test_decode_sha256 :
    decode .rv64 (0b000100000010#12 ++ 0b01011#5 ++ 0b001#3 ++ 0b01010#5 ++ 0b0010011#7) = .instr (.sha256sig0 10 11) ∧
    decode .rv64 (0b000100000011#12 ++ 0b01011#5 ++ 0b001#3 ++ 0b01010#5 ++ 0b0010011#7) = .instr (.sha256sig1 10 11) ∧
    decode .rv64 (0b000100000000#12 ++ 0b01011#5 ++ 0b001#3 ++ 0b01010#5 ++ 0b0010011#7) = .instr (.sha256sum0 10 11) ∧
    decode .rv64 (0b000100000001#12 ++ 0b01011#5 ++ 0b001#3 ++ 0b01010#5 ++ 0b0010011#7) = .instr (.sha256sum1 10 11) := by decide

theorem test_decode_sha512 :
    decode .rv64 (0b000100000110#12 ++ 0b01011#5 ++ 0b001#3 ++ 0b01010#5 ++ 0b0010011#7) = .instr (.sha512sig0 10 11) ∧
    decode .rv64 (0b000100000111#12 ++ 0b01011#5 ++ 0b001#3 ++ 0b01010#5 ++ 0b0010011#7) = .instr (.sha512sig1 10 11) ∧
    decode .rv64 (0b000100000100#12 ++ 0b01011#5 ++ 0b001#3 ++ 0b01010#5 ++ 0b0010011#7) = .instr (.sha512sum0 10 11) ∧
    decode .rv64 (0b000100000101#12 ++ 0b01011#5 ++ 0b001#3 ++ 0b01010#5 ++ 0b0010011#7) = .instr (.sha512sum1 10 11) := by decide

theorem test_decode_sha512_split :
    decode .rv32 (0b0101110#7 ++ 0b01100#5 ++ 0b01011#5 ++ 0b000#3 ++ 0b01010#5 ++ 0b0110011#7) = .instr (.sha512sig0h 10 11 12) ∧
    decode .rv32 (0b0101010#7 ++ 0b01100#5 ++ 0b01011#5 ++ 0b000#3 ++ 0b01010#5 ++ 0b0110011#7) = .instr (.sha512sig0l 10 11 12) ∧
    decode .rv32 (0b0101111#7 ++ 0b01100#5 ++ 0b01011#5 ++ 0b000#3 ++ 0b01010#5 ++ 0b0110011#7) = .instr (.sha512sig1h 10 11 12) ∧
    decode .rv32 (0b0101011#7 ++ 0b01100#5 ++ 0b01011#5 ++ 0b000#3 ++ 0b01010#5 ++ 0b0110011#7) = .instr (.sha512sig1l 10 11 12) ∧
    decode .rv32 (0b0101000#7 ++ 0b01100#5 ++ 0b01011#5 ++ 0b000#3 ++ 0b01010#5 ++ 0b0110011#7) = .instr (.sha512sum0r 10 11 12) ∧
    decode .rv32 (0b0101001#7 ++ 0b01100#5 ++ 0b01011#5 ++ 0b000#3 ++ 0b01010#5 ++ 0b0110011#7) = .instr (.sha512sum1r 10 11 12) := by decide

theorem test_decode_sm3 :
    decode .rv64 (0b000100001000#12 ++ 0b01011#5 ++ 0b001#3 ++ 0b01010#5 ++ 0b0010011#7) = .instr (.sm3p0 10 11) ∧
    decode .rv64 (0b000100001001#12 ++ 0b01011#5 ++ 0b001#3 ++ 0b01010#5 ++ 0b0010011#7) = .instr (.sm3p1 10 11) := by decide

theorem test_decode_sm4 :
    decode .rv64 (0b11#2 ++ 0b11000#5 ++ 0b01100#5 ++ 0b01011#5 ++ 0b000#3 ++ 0b01010#5 ++ 0b0110011#7) = .instr (.sm4ed 10 11 12 3) ∧
    decode .rv64 (0b11#2 ++ 0b11010#5 ++ 0b01100#5 ++ 0b01011#5 ++ 0b000#3 ++ 0b01010#5 ++ 0b0110011#7) = .instr (.sm4ks 10 11 12 3) := by decide

/-- The host's numbering: the word of `aes32esi a0, a1, a2, 3` (30_encoding.md R35), which XLEN 32 has. -/
theorem test_decodeTableWord : decodeTableWord 32 0xE2C58533 = some (.aes32esi 10 11 12 3) ∧
    decodeTableWord 32 0x31B59513 = none := by decide

/-- Words outside the block (V122 to V128). -/
theorem test_decode_not_this_block : decode .rv64 0x30159513 = .notThisBlock 0x30159513 ∧
    decode .rv32 0x00C58533 = .notThisBlock 0x00C58533 := by decide

/-! ### One step of each instruction, from 95_test_vectors.md section 2 -/

/-- V9. -/
theorem test_clmul_v9 : x10 (.clmul 10 11 12) (regs .rv64 0x0000000000000001 0x123456789ABCDEF0) =
    some 0x123456789ABCDEF0 := by decide

/-- V2. -/
theorem test_clmul_v2 : x10 (.clmul 10 11 12) (regs .rv32 0x00000001 0x9ABCDEF0) =
    some 0x9ABCDEF0 := by decide

/-- V14. -/
theorem test_clmulh_v14 : x10 (.clmulh 10 11 12) (regs .rv64 0x0123456789ABCDEF 0xFEDCBA9876543210) =
    some 0x00E038D8688850B0 := by decide

/-- V6. -/
theorem test_clmulh_v6 : x10 (.clmulh 10 11 12) (regs .rv32 0x12345678 0x9ABCDEF0) =
    some 0x08860E94 := by decide

/-- V22. -/
theorem test_aes32esi_v22 : x10 (.aes32esi 10 11 12 3) (regs .rv32 0xDEADBEEF 0x53000000) =
    some 0x33ADBEEF := by decide

/-- V21. -/
theorem test_aes32esmi_v21 : x10 (.aes32esmi 10 11 12 3) (regs .rv32 0x01234567 0xFFFFFFFF) =
    some 0x2D195371 := by decide

/-- V22. -/
theorem test_aes32dsi_v22 : x10 (.aes32dsi 10 11 12 3) (regs .rv32 0xDEADBEEF 0x53000000) =
    some 0x8EADBEEF := by decide

/-- V21. -/
theorem test_aes32dsmi_v21 : x10 (.aes32dsmi 10 11 12 3) (regs .rv32 0x01234567 0xFFFFFFFF) =
    some 0xD16112DF := by decide

/-- V28. -/
theorem test_aes64es_v28 : x10 (.aes64es 10 11 12) (regs .rv64 0x0706050403020100 0x0F0E0D0C0B0A0908) =
    some 0x7BAB01F276676B63 := by decide

/-- V24. -/
theorem test_aes64esm_v24 : x10 (.aes64esm 10 11 12) (regs .rv64 0x7766554433221100 0xFFEEDDCCBBAA9988) =
    some 0x76FB67F4D9E67963 := by decide

/-- V25. -/
theorem test_aes64ds_v25 : x10 (.aes64ds 10 11 12) (regs .rv64 0xFFEEDDCCBBAA9988 0x7766554433221100) =
    some 0x66D3F9277D94ED97 := by decide

/-- V28. -/
theorem test_aes64dsm_v28 : x10 (.aes64dsm 10 11 12) (regs .rv64 0x0706050403020100 0x0F0E0D0C0B0A0908) =
    some 0x6E29192E1C96A313 := by decide

/-- V31. -/
theorem test_aes64im_v31 : x10 (.aes64im 10 11) (regs .rv64 0x7766554433221100 0x0000000000000000) =
    some 0x99CCBBEEDD88FFAA := by decide

/-- V35. -/
theorem test_aes64ks1i_v35 : x10 (.aes64ks1i 10 11 0) (regs .rv64 0x0F0E0D0C0B0A0908 0x0000000000000000) =
    some 0xFE76ABD6FE76ABD6 := by decide

/-- V45. -/
theorem test_aes64ks1i_v45 : x10 (.aes64ks1i 10 11 10) (regs .rv64 0x0F0E0D0C0B0A0908 0x0000000000000000) =
    some 0x76ABD7FE76ABD7FE := by decide

/-- V59. -/
theorem test_aes64ks2_v59 : x10 (.aes64ks2 10 11 12) (regs .rv64 0xFE76ABD6FE76ABD6 0x0706050403020100) =
    some 0xFA72AFD2FD74AAD6 := by decide

/-- V69. -/
theorem test_sha256sig0_v69 : x10 (.sha256sig0 10 11) (regs .rv64 0x0000000061626380 0x0000000000000000) =
    some 0xFFFFFFFF940E90EF := by decide

/-- V66. -/
theorem test_sha256sig0_v66 : x10 (.sha256sig0 10 11) (regs .rv32 0xFFFFFFFF 0x00000000) =
    some 0x1FFFFFFF := by decide

/-- V73. -/
theorem test_sha256sig1_v73 : x10 (.sha256sig1 10 11) (regs .rv64 0x000000006A09E667 0x0000000000000000) =
    some 0xFFFFFFFFCFE5DA3C := by decide

/-- V66. -/
theorem test_sha256sig1_v66 : x10 (.sha256sig1 10 11) (regs .rv32 0xFFFFFFFF 0x00000000) =
    some 0x003FFFFF := by decide

/-- V69. -/
theorem test_sha256sum0_v69 : x10 (.sha256sum0 10 11) (regs .rv64 0x0000000061626380 0x0000000000000000) =
    some 0xFFFFFFFF8DD59276 := by decide

/-- V67. -/
theorem test_sha256sum0_v67 : x10 (.sha256sum0 10 11) (regs .rv32 0x61626380 0x00000000) =
    some 0x8DD59276 := by decide

/-- V69. -/
theorem test_sha256sum1_v69 : x10 (.sha256sum1 10 11) (regs .rv64 0x0000000061626380 0x0000000000000000) =
    some 0xFFFFFFFFC0B865F2 := by decide

/-- V67. -/
theorem test_sha256sum1_v67 : x10 (.sha256sum1 10 11) (regs .rv32 0x61626380 0x00000000) =
    some 0xC0B865F2 := by decide

/-- V77. -/
theorem test_sha512sig0_v77 : x10 (.sha512sig0 10 11) (regs .rv64 0xFFFFFFFFFFFFFFFF 0x0000000000000000) =
    some 0x01FFFFFFFFFFFFFF := by decide

/-- V77. -/
theorem test_sha512sig1_v77 : x10 (.sha512sig1 10 11) (regs .rv64 0xFFFFFFFFFFFFFFFF 0x0000000000000000) =
    some 0x03FFFFFFFFFFFFFF := by decide

/-- V78. -/
theorem test_sha512sum0_v78 : x10 (.sha512sum0 10 11) (regs .rv64 0x0123456789ABCDEF 0x0000000000000000) =
    some 0xB7C57A100C7EC1AB := by decide

/-- V79. -/
theorem test_sha512sum1_v79 : x10 (.sha512sum1 10 11) (regs .rv64 0x6A09E667F3BCC908 0x0000000000000000) =
    some 0x259A6CC1643336EF := by decide

/-- V84. -/
theorem test_sha512sig0h_v84 : x10 (.sha512sig0h 10 11 12) (regs .rv32 0x01234567 0x89ABCDEF) =
    some 0x6F92C77C := by decide

/-- V85. -/
theorem test_sha512sig0l_v85 : x10 (.sha512sig0l 10 11 12) (regs .rv32 0xF3BCC908 0x6A09E667) =
    some 0x51CAA1DF := by decide

/-- V85. -/
theorem test_sha512sig1h_v85 : x10 (.sha512sig1h 10 11 12) (regs .rv32 0x6A09E667 0xF3BCC908) =
    some 0xC8C619E7 := by decide

/-- V84. -/
theorem test_sha512sig1l_v84 : x10 (.sha512sig1l 10 11 12) (regs .rv32 0x89ABCDEF 0x01234567) =
    some 0xBBD4317A := by decide

/-- V84. -/
theorem test_sha512sum0r_v84 : x10 (.sha512sum0r 10 11 12) (regs .rv32 0x01234567 0x89ABCDEF) =
    some 0xB7C57A10 := by decide

/-- V85. -/
theorem test_sha512sum1r_v85 : x10 (.sha512sum1r 10 11 12) (regs .rv32 0xF3BCC908 0x6A09E667) =
    some 0x643336EF := by decide

/-- V91. -/
theorem test_sm3p0_v91 : x10 (.sm3p0 10 11) (regs .rv32 0x7380166F 0x00000000) =
    some 0x5F722F88 := by decide

/-- V93. -/
theorem test_sm3p0_v93 : x10 (.sm3p0 10 11) (regs .rv64 0x123456789ABCDEF0 0x0000000000000000) =
    some 0x000000005EE00ABC := by decide

/-- V93. -/
theorem test_sm3p1_v93 : x10 (.sm3p1 10 11) (regs .rv64 0x123456789ABCDEF0 0x0000000000000000) =
    some 0xFFFFFFFF8D89CDC1 := by decide

/-- V91. -/
theorem test_sm3p1_v91 : x10 (.sm3p1 10 11) (regs .rv32 0x7380166F 0x00000000) =
    some 0x4F0E6FA4 := by decide

/-- V105. -/
theorem test_sm4ed_v105 : x10 (.sm4ed 10 11 12 0) (regs .rv64 0xFFFFFFFF00000000 0x0000000000000000) =
    some 0xFFFFFFFFD55B5B8E := by decide

/-- V102. -/
theorem test_sm4ed_v102 : x10 (.sm4ed 10 11 12 2) (regs .rv32 0xDEADBEEF 0x00FF0000) =
    some 0xFFC5F7CE := by decide

/-- V104. -/
theorem test_sm4ks_v104 : x10 (.sm4ks 10 11 12 3) (regs .rv64 0x0000000000000000 0x0000000000112233) =
    some 0xFFFFFFFFD66B1AC0 := by decide

/-- V102. -/
theorem test_sm4ks_v102 : x10 (.sm4ks 10 11 12 2) (regs .rv32 0xDEADBEEF 0x00FF0000) =
    some 0xDEE59AE6 := by decide
/-! ### Registers, pc, traps, reset -/

/-- An instruction whose rd is both sources reads the old value (10_state.md R15; V7: 3 times 3 is 5). -/
theorem test_rd_is_source : after (exec (.clmul 11 11 11) (regs .rv32 3 0)) (·.readReg 11) = some 5 := by decide

/-- A write to x[0] is discarded, and the instruction completes (10_state.md R15, R16, R89). -/
theorem test_rd_zero : after (exec (.sha256sum0 0 11) (regs .rv64 1 0))
    (fun t => (t.readReg 0, t.readPc, t.minstret)) = some (0, 0x1004, 1) := by decide

/-- The pc advances modulo 2^XLEN (10_state.md R16). -/
theorem test_pc_wraps : after (exec (.sm3p0 10 11) { regs .rv32 0 0 with pc := 0xFFFFFFFC }) (·.readPc) = some 0 := by
  decide

/-- Program P5a's word: aes64es at XLEN 32 traps with it and writes nothing (60_exceptions.md R81, R85). -/
theorem test_p5a : after (step (atWord .rv32 0x32A505B3)) (fun t => (t.mepc, t.mcause, t.mtval, t.mstatus.mpp)) =
    some (0x1000, 2, 0x32A505B3, .m) := by decide

/-- Program P5b's word: aes64ks1i with rnum 11 traps, to the vector's base, and x[11] keeps its value. -/
theorem test_p5b : after (step { atWord .rv64 0x31B51593 with mtvec := { base := 0x400, vectored := true } })
    (fun t => (t.mcause, t.readPc, t.readReg 11, t.minstret)) = some (2, 0x400, 0, 0) := by decide

/-- The trap value is 0 where the host does not report instruction bits (60_exceptions.md R81). -/
theorem test_tval_zero : after (step { atWord .rv64 0x31B51593 with tvalIllegalBits := false }) (·.mtval) = some 0 := by
  decide

/-- From U-mode with medeleg[2] = 1 the trap enters S-mode (60_exceptions.md R85). -/
theorem test_trap_to_s : after (step (atWordUser .rv32 0x32A505B3))
    (fun t => (t.sepc, t.scause, t.stval, t.sstatus.spp, t.mode, t.readPc)) =
    some (0x1000, 2, 0x32A505B3, .u, .s, 0x2000) := by decide

/-- From M-mode medeleg plays no part (95_test_vectors.md P5). -/
theorem test_trap_m_not_delegated : after (step { atWordUser .rv32 0x32A505B3 with mode := .m }) (·.mode) = some .m := by
  decide

/-- The enable is saved and cleared on entry, and both returns restore what was saved (R85, R86). -/
theorem test_enable_saved : after (step { atWord .rv32 0x32A505B3 with mstatus := ⟨true, false, .u⟩ })
    (fun t => (t.mstatus, t.returnM.mstatus.mie, t.returnM.mode, t.returnM.readPc)) =
    some (⟨false, true, .m⟩, true, .m, 0x1000) := by decide

/-- Reset: mode M, mstatus.MIE 0, x[0] 0 (10_state.md R18, 70_reset_and_hazards.md R90). -/
theorem test_reset : State.reset.mode = .m ∧ State.reset.mstatus.mie = false ∧ State.reset.readReg 0 = 0 := by decide

/-- Memory is little-endian (20_memory.md R23). -/
theorem test_little_endian : (State.reset.memWrite 0x80 4 0x11223344).readByte 0x80 = some 0x44 ∧
    (State.reset.memWrite 0x80 4 0x11223344).memRead 0x82 2 = some 0x1122 := by decide

/-- The fetch's own faults (notes/assumptions/10.md). -/
theorem test_fetch_faults :
    (match step State.reset with | .fault (.fetchUnwritten p) => p == 0x1000 | _ => false) = true ∧
    (match step { State.reset with pc := 0x1002 } with | .fault (.fetchMisaligned p) => p == 0x1002 | _ => false) =
      true := by decide

/-! ### The hypotheses of the statements can be met

One theorem for each statement of Certificates/Slice0 that has hypotheses: a concrete case that meets them
together, at a boundary for each clause. -/

/-- `sha256sig0 a0, a1` (30_encoding.md R35) and two illegal words, as words. -/
def okWord : Word := 0x10259513

def badWord : Word := 0x32A505B3

theorem test_witness_DecodeOfEncodeIsTheInstruction : (Instr.aes64ks1i 31 31 10).wellFormed .rv64 = true ∧
    (Instr.aes64ks1i 31 31 11).wellFormed .rv64 = false ∧ (Instr.aes32dsmi 31 31 31 3).wellFormed .rv64 = false := by
  decide

theorem test_witness_EveryWord : encode (.sha256sig0 10 11) = okWord ∧
    decode .rv64 0xFFFFFFFF = .notThisBlock 0xFFFFFFFF := by decide

theorem test_witness_OpcodeMapRowsShareNoWord : ∃ r ∈ opcodeRows, r.selects okWord = true := by decide

theorem test_witness_DecodeFollowsTheOpcodeMap :
    (∃ r ∈ opcodeRows, okWord &&& r.mask = r.mtch ∧ opExistsAt .rv64 r.op = true) ∧
    (∃ r ∈ opcodeRows, badWord &&& r.mask = r.mtch ∧ opExistsAt .rv32 r.op = false) ∧
    (∃ r ∈ opcodeRows, (0x31B51593 : Word) &&& r.mask = r.mtch ∧ opExistsAt .rv64 r.op = true ∧
      r.op = .aes64ks1i ∧ ((0x31B51593 : Word).extractLsb' 20 4).toNat > 0xA) ∧
    (∀ r ∈ opcodeRows, (0x30159513 : Word) &&& r.mask ≠ r.mtch) ∧
    slotField (instrOf .sm4ks 0xC0000000) = some 3 ∧ roundField (instrOf .aes64ks1i 0x00F00000) = some 15 := by decide

theorem fetch_atWord_ok : (atWord .rv32 okWord).fetchWord.toOption = some okWord ∧
    (atWord .rv32 badWord).fetchWord.toOption = some badWord ∧
    (atWord .rv64 0x30159513).fetchWord.toOption = some 0x30159513 ∧
    (atWordUser .rv32 badWord).fetchWord.toOption = some badWord := by decide

theorem test_witness_StepRunsTheDecodedInstruction : (atWord .rv32 okWord).fetchWord = .ok okWord ∧
    decode (atWord .rv32 okWord).xlen okWord = .instr (.sha256sig0 10 11) := ⟨rfl, by decide⟩

theorem test_witness_StepAtOtherWordsTrapsOrIsRefused :
    ((atWord .rv32 badWord).fetchWord = .ok badWord ∧ decode (atWord .rv32 badWord).xlen badWord = .illegal badWord) ∧
    ((atWord .rv64 0x30159513).fetchWord = .ok 0x30159513 ∧
      decode (atWord .rv64 0x30159513).xlen 0x30159513 = .notThisBlock 0x30159513) :=
  ⟨⟨rfl, by decide⟩, ⟨rfl, by decide⟩⟩

theorem test_witness_FetchReadsFourLittleEndianBytes :
    (atWord .rv32 okWord).readPc.toNat % 4 = 0 ∧ (atWord .rv32 okWord).readByte 0x1000 = some 0x13 ∧
    (atWord .rv32 okWord).readByte (0x1000 + 1) = some 0x95 ∧
    (atWord .rv32 okWord).readByte (0x1000 + 2) = some 0x25 ∧
    (atWord .rv32 okWord).readByte (0x1000 + 3) = some 0x10 ∧ (atWord .rv32 okWord).readPc = 0x1000 := by decide

theorem test_witness_FailedFetchStopsTheStep :
    ¬ Aligned4 { State.reset with pc := 0x1001 }.readPc ∧ ¬ Aligned4 { State.reset with pc := 0x1003 }.readPc ∧
    (Aligned4 (State.reset.writeByte 0x1003 0).readPc ∧
      (State.reset.writeByte 0x1003 0).readByte (State.reset.writeByte 0x1003 0).readPc = none) ∧
    (Aligned4 (State.reset.memWrite 0x1000 3 0).readPc ∧
      (State.reset.memWrite 0x1000 3 0).readByte ((State.reset.memWrite 0x1000 3 0).readPc + 3) = none) := by
  unfold Aligned4; decide

theorem test_witness_PlacedInstructionIsFetchedAndRun : Aligned4 State.reset.readPc ∧
    Aligned4 { State.reset with pc := 0xFFFFFFFFFFFFFFFC }.readPc := by unfold Aligned4; decide

theorem test_witness_IllegalInstructionIsRaisedInExactlyTheListedCases :
    (Instr.clmul 0 31 0).wellFormed (regs .rv32 0 0).xlen = true ∧
    (Instr.aes64ks1i 31 31 10).wellFormed State.reset.xlen = true ∧
    (Instr.aes64ks1i 31 31 11).wellFormed State.reset.xlen = false ∧
    (Instr.aes64ks1i 31 31 15).wellFormed State.reset.xlen = false ∧
    (Instr.sha512sum1r 1 2 3).wellFormed State.reset.xlen = false := by decide

theorem test_witness_EveryStepCompletesOneInstructionOrTakesIllegal :
    step (atWord .rv32 okWord) = .next (nextOf (step (atWord .rv32 okWord)) State.reset) ∧
    step (atWord .rv32 badWord) = .next (nextOf (step (atWord .rv32 badWord)) State.reset) := ⟨rfl, rfl⟩

/-- A state with a program is well formed (for the invariant's hypothesis). -/
theorem wf_atWord : (atWord .rv32 okWord).WF := by
  constructor <;> (try unfold FitsXlen) <;> (try unfold Aligned4) <;> decide

theorem test_witness_EveryStepKeepsWellFormedStates : (atWord .rv32 okWord).WF ∧
    step (atWord .rv32 okWord) = .next (nextOf (step (atWord .rv32 okWord)) State.reset) := ⟨wf_atWord, rfl⟩

/-- Host parameters of an RV32 host with M-mode only. -/
def hostRv32 : HostParams :=
  { xlen := .rv32, resetPc := 0xFFFFFFFC, tvalIllegalBits := false, modes := { hasS := false, hasU := false },
    mtvec := { base := 0x80000000, vectored := true } }

theorem test_witness_ResetStatesAreWellFormed : HostParamsOk hostRv32 := by
  constructor <;> (first | unfold FitsXlen | unfold Aligned4) <;> decide

theorem test_witness_ReturnUndoesIllegalTrapEntry : IllegalGoesToS (atWordUser .rv32 badWord) ∧
    ¬ IllegalGoesToS (atWord .rv32 badWord) ∧ ¬ IllegalGoesToS { atWordUser .rv32 badWord with mode := .m } ∧
    IllegalGoesToS { atWordUser .rv32 badWord with mode := .s } := by unfold IllegalGoesToS; decide

theorem test_witness_TrapValueIsTheWordZeroExtended : IllegalGoesToS (atWordUser .rv64 badWord) ∧
    ¬ IllegalGoesToS (atWord .rv64 badWord) := by unfold IllegalGoesToS; decide

theorem test_witness_ReturningToAFaultingWordTrapsAgain :
    ((atWord .rv32 badWord).fetchWord = .ok badWord ∧ decode (atWord .rv32 badWord).xlen badWord = .illegal badWord ∧
      step (atWord .rv32 badWord) = .next (nextOf (step (atWord .rv32 badWord)) State.reset)) ∧
    ((atWordUser .rv32 badWord).fetchWord = .ok badWord ∧
      decode (atWordUser .rv32 badWord).xlen badWord = .illegal badWord ∧
      step (atWordUser .rv32 badWord) = .next (nextOf (step (atWordUser .rv32 badWord)) State.reset)) :=
  ⟨⟨rfl, by decide, rfl⟩, ⟨rfl, by decide, rfl⟩⟩

theorem test_witness_CompletingIsTheSameInEveryMode : (Instr.sm4ed 1 2 3 0).wellFormed State.reset.xlen = true ∧
    (∃ t, exec (.aes64es 11 10 10) (atWordUser .rv32 badWord) = .next t ∧
      t.mode ≠ (atWordUser .rv32 badWord).mode) := ⟨by decide, _, rfl, by decide⟩

theorem test_witness_ResultDependsOnlyOnOperandsFieldAndXlen :
    let u : State := { regs .rv32 2 1 with mode := .u, pc := 0x80 }
    (Instr.sm4ks 10 11 12 3).wellFormed (regs .rv32 1 2).xlen = true ∧ u.xlen = (regs .rv32 1 2).xlen ∧
    (Instr.sm4ks 5 12 11 3).op = (Instr.sm4ks 10 11 12 3).op ∧
    slotField (.sm4ks 5 12 11 3) = slotField (.sm4ks 10 11 12 3) ∧
    roundField (.sm4ks 5 12 11 3) = roundField (.sm4ks 10 11 12 3) ∧
    (sourceRegs (.sm4ks 5 12 11 3)).map u.readReg = (sourceRegs (.sm4ks 10 11 12 3)).map (regs .rv32 1 2).readReg := by
  decide

/-- Ports for `aes64ks1i` with round number n. -/
def ks1iPorts (n : BitVec 4) : UnitInput := { op := .aes64ks1i, xlen := .rv64, a := 7, b := 99, bs := 2, rnum := n }

theorem test_witness_UnitPortsAgreeWithExecution :
    DrivesPorts (.aes64ks1i 10 11 10) (regs .rv64 7 0) (ks1iPorts 10) ∧ (blockUnit (ks1iPorts 10)).isSome = true ∧
    DrivesPorts (.aes64ks1i 10 11 11) (regs .rv64 7 0) (ks1iPorts 11) ∧ blockUnit (ks1iPorts 11) = none := by
  refine ⟨⟨rfl, rfl, ?_, ?_, ?_, ?_⟩, by decide, ⟨rfl, rfl, ?_, ?_, ?_, ?_⟩, by decide⟩ <;> decide

theorem test_witness_RegisterReadsAfterWrites : (31 : Reg) ≠ 0 ∧ (0 : Reg) ≠ 31 := by decide

theorem test_witness_StoreThenLoadIsLittleEndian : 8 ≤ 8 ∧ 7 < 8 ∧
    (∀ k < 8, (regs .rv32 0 0).memKey 0x3 ≠ (regs .rv32 0 0).memKey (0xFFFFFFFB + BitVec.ofNat 64 k)) ∧
    (regs .rv32 0 0).memKey 0x2 = (regs .rv32 0 0).memKey (0xFFFFFFFB + BitVec.ofNat 64 7) := by decide

theorem test_witness_WordResultsAreSignExtendedAndReadLowWords :
    (Instr.sm4ed 10 11 12 3).op ∈ [Op.sha256sig0, .sha256sig1, .sha256sum0, .sha256sum1, .sm3p0, .sm3p1, .sm4ed,
      .sm4ks] ∧ (regs .rv64 0xFFFFFFFF00000001 2).xlen = (regs .rv64 1 0xAAAAAAAA00000002).xlen ∧
    ∀ q ∈ sourceRegs (.sm4ed 10 11 12 3), ((regs .rv64 0xFFFFFFFF00000001 2).readReg q).setWidth 32 =
      ((regs .rv64 1 0xAAAAAAAA00000002).readReg q).setWidth 32 := by decide

theorem test_witness_RotationsReduceTheirAmountAndInvert : 0 < 32 ∧ 31 < 32 := by decide

theorem test_witness_GfInverterGivesTheInverse : (0x53 : Byte) ≠ 0 ∧ gfMul 0x53 0xCA = 0x01 := by decide

theorem test_witness_Sm4SboxIsAPermutation : sm4Sbox 0x71 = sm4Sbox 0x71 := rfl

theorem test_witness_WordSubstitutionActsOnEachByte : 3 < 4 ∧ 7 < 8 := by decide

theorem test_witness_MixColumnsAndItsInverse : 3 < 4 := by decide

theorem test_witness_ShiftRowsAndItsInverse : 3 < 4 ∧ 0 < 4 := by decide

theorem test_witness_RoundConstantsAreThePowersOfX : (9 : BitVec 4).toNat ≤ 9 := by decide

theorem test_witness_CarrylessMultiplyWritesTheHalvesOfTheProduct : 31 < xlenBits .rv32 ∧ 63 < xlenBits .rv64 := by
  decide

theorem test_witness_SlicedAesSubstitutesOneByteAndAccumulates : (regs .rv32 1 2).xlen = .rv32 ∧
    (regs .rv64 1 2).xlen = .rv64 ∧ 3 < 4 ∧ 3 ≠ (2 : BitVec 2).toNat ∧
    byteAt (0x52000000 : Word) (3 : BitVec 2).toNat = 0x52 ∧ byteAt (0x63 : Word) (0 : BitVec 2).toNat = 0x63 := by
  decide

theorem test_witness_Aes64RoundsWriteOneHalfOfTheNextState : (regs .rv64 1 2).xlen = .rv64 ∧
    (regs .rv32 1 2).xlen = .rv32 ∧ 7 < 8 := by decide

theorem test_witness_Aes64imInvertsMixColumnsOnTwoColumns : (regs .rv64 1 2).xlen = .rv64 ∧
    (regs .rv32 1 2).xlen = .rv32 := by decide

theorem test_witness_AesKeyScheduleStepsWriteTheirWords :
    ((regs .rv64 1 2).xlen = .rv64 ∧ (10 : BitVec 4).toNat ≤ 0xA) ∧ (regs .rv32 1 2).xlen = .rv32 ∧
    (11 : BitVec 4).toNat > 0xA := by decide

theorem test_witness_Sha512DirectFormsWriteTheReferenceFunctions : (regs .rv64 1 2).xlen = .rv64 ∧
    (regs .rv32 1 2).xlen = .rv32 := by decide

theorem test_witness_Sha512SplitFormsWriteTheirFormulas : (regs .rv32 1 2).xlen = .rv32 ∧
    (regs .rv64 1 2).xlen = .rv64 := by decide

theorem test_witness_SplitFormsComputeTheHalvesOfTheDirectForms : (regs .rv32 0x01234567 0x89ABCDEF).xlen = .rv32 ∧
    (regs .rv64 0x0123456789ABCDEF 0).xlen = .rv64 ∧
    (regs .rv64 0x0123456789ABCDEF 0).readReg 11 =
      ((regs .rv32 0x01234567 0x89ABCDEF).readReg 11).setWidth 32 ++
        ((regs .rv32 0x01234567 0x89ABCDEF).readReg 12).setWidth 32 := by decide

theorem test_witness_Sm4InstructionsSubstituteOneByteAndAccumulate :
    byteAt (0x00710000 : Word) (2 : BitVec 2).toNat = 0x71 := by decide

end Sys2Proof.Tests
end

section
/-!
PROOFS for 00_scope.md, R9: rotations by their bits, how they compose, and the statement that they reduce
their amount and invert each other.
-/

namespace Sys2Proof.Machine

/-- R9 bit by bit. -/
theorem getLsbD_ror {w : Nat} (x : BitVec w) (n : Nat) {k : Nat} (hk : k < w) :
    (ror x n).getLsbD k = x.getLsbD ((k + n) % w) := by
  have hn : n % w < w := Nat.mod_lt n (by omega)
  rw [ror_eq_rotateRight, BitVec.getLsbD_rotateRight, ← Nat.add_mod_mod]
  by_cases hwrap : k < w - n % w
  · have hi : (k + n % w) % w = n % w + k := by rw [Nat.mod_eq_of_lt (by omega), Nat.add_comm]
    simp [hwrap, hi]
  · have hi : (k + n % w) % w = k - (w - n % w) := by
      rw [Nat.mod_eq_sub_mod (by omega), Nat.mod_eq_of_lt (by omega)]; omega
    simp [hwrap, hk, hi]

theorem ror_mod {w : Nat} (x : BitVec w) (n : Nat) : ror x (n % w) = ror x n := by
  rw [ror_eq_rotateRight, ror_eq_rotateRight, BitVec.rotateRight_mod_eq_rotateRight]

theorem ror_ror {w : Nat} (x : BitVec w) (n m : Nat) : ror (ror x n) m = ror x (n + m) := by
  refine BitVec.eq_of_getLsbD_eq fun k hk => ?_
  have hmod : (k + m) % w < w := Nat.mod_lt _ (by omega)
  rw [getLsbD_ror _ m hk, getLsbD_ror x n hmod, getLsbD_ror x (n + m) hk, Nat.mod_add_mod,
    Nat.add_assoc, Nat.add_comm m n]

/-- Rotating all the way round, any number of times, changes nothing. -/
theorem ror_eq_self_of_dvd {w : Nat} (x : BitVec w) {n : Nat} (hn : w ∣ n) : ror x n = x := by
  refine BitVec.eq_of_getLsbD_eq fun k hk => ?_
  rw [getLsbD_ror x n hk, ← Nat.add_mod_mod, Nat.mod_eq_zero_of_dvd hn, Nat.add_zero, Nat.mod_eq_of_lt hk]

/-- A rotation left is the rotation right by the rest of a full turn. -/
theorem rol_ror {w : Nat} (x : BitVec w) (n : Nat) (hw : 0 < w) : rol (ror x n) n = x := by
  have hn : n % w < w := Nat.mod_lt n hw
  have turn : (n + (w - n % w) % w) % w = 0 := by
    rw [Nat.add_mod_mod, ← Nat.mod_add_mod, Nat.add_sub_cancel' hn.le, Nat.mod_self]
  rw [rol, ror_ror, ror_eq_self_of_dvd x (Nat.dvd_of_mod_eq_zero turn)]

/-- Settles O28: each part is one of the rotation laws above. -/
theorem rotationsReduceTheirAmountAndInvert : Obligations.RotationsReduceTheirAmountAndInvert := by
  intro w x n hw
  exact ⟨fun _ hk => getLsbD_ror x n hk, rfl, (ror_mod x n).symm, rol_ror x n hw,
    ror_eq_self_of_dvd x dvd_rfl⟩

end Sys2Proof.Machine
end

section
/-!
PROOFS for 00_scope.md, R10: the SHA-256, SM3 and SM4 instructions read the low words of their sources and
write a 32-bit result.
-/

namespace Sys2Proof.Machine

/-- How a completion with a 32-bit result is shown. -/
theorem completesWith_wordResult {i : Instr} {s : State} {rd : Reg} {r : Word}
    (h : exec i s = s.issue i rd (result32 s.xlen r)) (hw : i.wellFormed s.xlen = true) :
    CompletesWith i s rd (wordResult s.xlen r) := by
  rw [wordResult_eq_result32]
  exact completesWith_of_issue h hw (truncX_result32 s.xlen r)

/-- One 32-bit result fits every state whose source registers hold the low words they hold in s. -/
def IssuesWordOfLowWords (i : Instr) (s : State) : Prop :=
  ∃ r : Word, ∀ u : State, (∀ q ∈ sourceRegs i, u.readWord q = s.readWord q) →
    exec i u = u.issue i (destReg i) (result32 u.xlen r)

/-- An instruction that issues a function of one source's low word. -/
theorem issuesWord_of_unary {i : Instr} {rs1 : Reg} (f : Word → Word) (hsrc : sourceRegs i = [rs1])
    (hexec : ∀ u, exec i u = u.issue i (destReg i) (result32 u.xlen (f (u.readWord rs1)))) (s : State) :
    IssuesWordOfLowWords i s := by
  refine ⟨f (s.readWord rs1), fun u hu => ?_⟩
  have h1 : u.readWord rs1 = s.readWord rs1 := hu rs1 (by simp [hsrc])
  rw [hexec u, h1]

/-- An instruction that issues a function of two sources' low words. -/
theorem issuesWord_of_binary {i : Instr} {rs1 rs2 : Reg} (f : Word → Word → Word)
    (hsrc : sourceRegs i = [rs1, rs2])
    (hexec : ∀ u, exec i u =
      u.issue i (destReg i) (result32 u.xlen (f (u.readWord rs1) (u.readWord rs2)))) (s : State) :
    IssuesWordOfLowWords i s := by
  refine ⟨f (s.readWord rs1) (s.readWord rs2), fun u hu => ?_⟩
  have h1 : u.readWord rs1 = s.readWord rs1 := hu rs1 (by simp [hsrc])
  have h2 : u.readWord rs2 = s.readWord rs2 := hu rs2 (by simp [hsrc])
  rw [hexec u, h1, h2]

/-- The operations with a 32-bit result at both XLENs (00_scope.md R10). -/
def wordOps : List Op := [.sha256sig0, .sha256sig1, .sha256sum0, .sha256sum1, .sm3p0, .sm3p1, .sm4ed, .sm4ks]

/-- They exist at both XLENs and have no reserved selector. -/
theorem wellFormed_of_mem_wordOps {i : Instr} (hi : i.op ∈ wordOps) (x : Xlen) : i.wellFormed x = true := by
  have legal : ∀ op ∈ wordOps, ∀ n, opLegal .rv32 op n = true ∧ opLegal .rv64 op n = true := by decide
  rw [← Laws.legalAt_eq_wellFormed, legalAt]
  obtain ⟨h32, h64⟩ := legal i.op hi i.rnumOrZero
  cases x
  · exact h32
  · exact h64

/-- Their meanings, one by one: the source registers enter by `State.readWord` alone. -/
theorem issuesWord_of_mem_wordOps {i : Instr} (hi : i.op ∈ wordOps) (s : State) : IssuesWordOfLowWords i s := by
  cases i with
  | sha256sig0 rd rs1 => exact issuesWord_of_unary sha256sig0Result rfl (fun _ => rfl) s
  | sha256sig1 rd rs1 => exact issuesWord_of_unary sha256sig1Result rfl (fun _ => rfl) s
  | sha256sum0 rd rs1 => exact issuesWord_of_unary sha256sum0Result rfl (fun _ => rfl) s
  | sha256sum1 rd rs1 => exact issuesWord_of_unary sha256sum1Result rfl (fun _ => rfl) s
  | sm3p0 rd rs1 => exact issuesWord_of_unary sm3p0Result rfl (fun _ => rfl) s
  | sm3p1 rd rs1 => exact issuesWord_of_unary sm3p1Result rfl (fun _ => rfl) s
  | sm4ed rd rs1 rs2 bs => exact issuesWord_of_binary (sm4edResult · · bs) rfl (fun _ => rfl) s
  | sm4ks rd rs1 rs2 bs => exact issuesWord_of_binary (sm4ksResult · · bs) rfl (fun _ => rfl) s
  | _ => simp [Instr.op, wordOps] at hi

/-- Settles O27: the result issued in s fits every state with the same low words in the sources, s itself
among them, and the instruction is well formed at both XLENs. -/
theorem wordResultsAreSignExtendedAndReadLowWords : Obligations.WordResultsAreSignExtendedAndReadLowWords := by
  intro i s hi
  obtain ⟨r, hr⟩ := issuesWord_of_mem_wordOps hi s
  have completes (u : State) (hu : ∀ q ∈ sourceRegs i, u.readWord q = s.readWord q) :
      CompletesWith i u (destReg i) (wordResult u.xlen r) :=
    completesWith_wordResult (hr u hu) (wellFormed_of_mem_wordOps hi u.xlen)
  exact ⟨r, completes s fun _ _ => rfl, fun u _ hu => completes u hu⟩

end Sys2Proof.Machine
end

section
/-!
PROOFS for 10_state.md, R15, R16 and R18: register reads after writes, the step as the decoded instruction,
and the states reset leaves.
-/

namespace Sys2Proof.Machine

/-- Settles O25: each part is one case of `readReg_writeReg`. -/
theorem registerReadsAfterWrites : Obligations.RegisterReadsAfterWrites := by
  intro s rd v
  refine ⟨readReg_zero s, fun r => ?_, fun hrd => ?_, fun r hr => ?_⟩
  · have hnot : ¬ (r = (0 : Reg) ∧ r ≠ 0#5) := fun ⟨h0, hn⟩ => hn h0
    rw [readReg_writeReg, if_neg hnot]
  · rw [readReg_writeReg, if_pos ⟨rfl, hrd⟩, truncX_toNat_bits]
  · rw [readReg_writeReg, if_neg fun ⟨h, _⟩ => hr h]

/-- Settles O7: the fetch and the decoding select the branch of the step that runs the instruction. -/
theorem stepRunsTheDecodedInstruction : Obligations.StepRunsTheDecodedInstruction := by
  intro s w i hfetch hdecode
  simp only [step, hfetch, hdecode]

/-- Settles O16: the reset state's own fields, with x[0] read through `State.readReg`. -/
theorem resetLeavesTheSpecsValues : Obligations.ResetLeavesTheSpecsValues :=
  fun _ => ⟨rfl, readReg_zero _, rfl, rfl, rfl, rfl⟩

/-- A 32-bit number fits both XLENs. -/
theorem fits_of_lt (x : Xlen) {v : XWord} (h : v.toNat < 2 ^ 32) : FitsXlen x v :=
  h.trans_le (Nat.pow_le_pow_right (by decide) (by cases x <;> decide))

theorem fits_zero (x : Xlen) : FitsXlen x 0 := fits_of_lt x (by decide)

theorem aligned_zero : Aligned4 0 := rfl

/-- What reset does not take from the parameters is zero, M-mode (saved: M and U) and no memory. -/
theorem resetWith_wf {p : HostParams} (hp : HostParamsOk p) : (State.resetWith p).WF where
  x_zero := rfl
  x_fits r := by
    have hzero : (State.resetWith p).x[r] = 0 := by simp [State.resetWith]
    rw [hzero]; exact fits_zero _
  pc_fits := hp.resetPc_fits
  pc_aligned := hp.resetPc_aligned
  mode_has := rfl
  mpp_has := rfl
  spp_not_m := Mode.noConfusion
  mepc_fits := fits_zero _
  mepc_aligned := aligned_zero
  mcause_fits := fits_zero _
  mtval_fits := fits_zero _
  mtvec_fits := hp.mtvec_fits
  mtvec_aligned := hp.mtvec_aligned
  sepc_fits := fits_zero _
  sepc_aligned := aligned_zero
  scause_fits := fits_zero _
  stval_fits := fits_zero _
  stvec_fits := fits_zero _
  stvec_aligned := aligned_zero
  mem_wf := rfl
  mem_fits _ hc := absurd hc List.not_mem_nil

/-- The parameters of the model's own reset state are of the right form. -/
theorem hostParamsOk_defaultParams : HostParamsOk defaultParams where
  resetPc_fits := fits_of_lt _ (by decide)
  resetPc_aligned := rfl
  mtvec_fits := fits_zero _
  mtvec_aligned := aligned_zero

/-- Settles O15: the model's own reset state is the one of `defaultParams`. -/
theorem resetStatesAreWellFormed : Obligations.ResetStatesAreWellFormed :=
  ⟨fun _ => resetWith_wf, resetWith_wf hostParamsOk_defaultParams⟩

end Sys2Proof.Machine
end

section
/-!
PROOFS for 10_state.md, R12 and R17: the functional unit computes what `exec` writes, and so the result
depends on nothing but what the unit's ports carry.
-/

namespace Sys2Proof.Machine

/-- The meanings and the unit, one by one: the ports the operation reads carry the instruction's operands. -/
theorem exec_eq_issue_unitResult {i : Instr} {s : State} {u : UnitInput} (h : DrivesPorts i s u) :
    exec i s = s.issue i (destReg i) (unitResult u) := by
  obtain ⟨op, xlen, a, b, bs, rnum⟩ := u
  obtain ⟨hop, hxlen, ha, hb, hbs, hrnum⟩ := h
  dsimp only at hop hxlen ha hb hbs hrnum
  subst hop hxlen
  cases i with
  | aes64im rd rs1 | sha256sig0 rd rs1 | sha256sig1 rd rs1 | sha256sum0 rd rs1 | sha256sum1 rd rs1
  | sha512sig0 rd rs1 | sha512sig1 rd rs1 | sha512sum0 rd rs1 | sha512sum1 rd rs1
  | sm3p0 rd rs1 | sm3p1 rd rs1 =>
    obtain rfl := ha rs1 rfl
    rfl
  | clmul rd rs1 rs2 | clmulh rd rs1 rs2
  | aes64es rd rs1 rs2 | aes64esm rd rs1 rs2 | aes64ds rd rs1 rs2 | aes64dsm rd rs1 rs2 | aes64ks2 rd rs1 rs2
  | sha512sig0h rd rs1 rs2 | sha512sig0l rd rs1 rs2 | sha512sig1h rd rs1 rs2 | sha512sig1l rd rs1 rs2
  | sha512sum0r rd rs1 rs2 | sha512sum1r rd rs1 rs2 =>
    obtain rfl := ha rs1 rfl
    obtain rfl := hb rs2 rfl
    rfl
  | aes32esi rd rs1 rs2 sel | aes32esmi rd rs1 rs2 sel | aes32dsi rd rs1 rs2 sel | aes32dsmi rd rs1 rs2 sel
  | sm4ed rd rs1 rs2 sel | sm4ks rd rs1 rs2 sel =>
    obtain rfl := ha rs1 rfl
    obtain rfl := hb rs2 rfl
    obtain rfl := hbs sel rfl
    rfl
  | aes64ks1i rd rs1 round =>
    obtain rfl := ha rs1 rfl
    obtain rfl := hrnum round rfl
    rfl

/-- The unit's legality check is the instruction's, though port `rnum` is free where there is no such field. -/
theorem opLegal_of_drivesPorts {i : Instr} {s : State} {u : UnitInput} (h : DrivesPorts i s u) :
    opLegal u.xlen u.op u.rnum = i.wellFormed s.xlen := by
  have selector : opSelectorLegal i.op u.rnum = opSelectorLegal i.op i.rnumOrZero := by
    cases i with
    | aes64ks1i rd rs1 round => rw [h.rnum round rfl]; rfl
    | _ => rfl
  rw [← Laws.legalAt_eq_wellFormed, legalAt, h.op, h.xlen, opLegal, opLegal, selector]

/-- Port `result` carries an XLEN-bit value: the only operations that write 64 bits exist at XLEN 64 alone. -/
theorem truncX_unitResult {u : UnitInput} (h : opLegal u.xlen u.op u.rnum = true) :
    truncX u.xlen (unitResult u) = unitResult u := by
  obtain ⟨op, xlen, a, b, bs, rnum⟩ := u
  have hexists : opExistsAt xlen op = true := (Bool.and_eq_true_iff.mp h).1
  cases op with
  | clmul | clmulh =>
    cases xlen with
    | rv32 => exact truncX_setWidth .rv32 _
    | rv64 => rfl
  | aes32esi | aes32esmi | aes32dsi | aes32dsmi
  | sha512sig0h | sha512sig0l | sha512sig1h | sha512sig1l | sha512sum0r | sha512sum1r =>
    exact truncX_setWidth xlen _
  | sha256sig0 | sha256sig1 | sha256sum0 | sha256sum1 | sm3p0 | sm3p1 | sm4ed | sm4ks =>
    exact truncX_result32 xlen _
  | aes64es | aes64esm | aes64ds | aes64dsm | aes64im | aes64ks1i | aes64ks2
  | sha512sig0 | sha512sig1 | sha512sum0 | sha512sum1 =>
    obtain rfl : xlen = .rv64 := eq_of_beq hexists
    rfl

/-- Port `illegal` is 1 exactly where the instruction is not well formed. -/
theorem blockUnit_eq_none_iff {i : Instr} {s : State} {u : UnitInput} (h : DrivesPorts i s u) :
    blockUnit u = none ↔ i.wellFormed s.xlen = false := by
  simp [blockUnit, opLegal_of_drivesPorts h]

/-- Port `illegal` is 0 where the instruction is well formed, and port `result` is then the value of the
unit's function. -/
theorem blockUnit_eq_some_iff {i : Instr} {s : State} {u : UnitInput} (h : DrivesPorts i s u) {v : XWord} :
    blockUnit u = some v ↔ i.wellFormed s.xlen = true ∧ unitResult u = v := by
  simp [blockUnit, opLegal_of_drivesPorts h]

/-- An instruction completes with what the unit, driven with its operands, has on port `result`. -/
theorem completesWith_of_blockUnit {i : Instr} {s : State} {u : UnitInput} (h : DrivesPorts i s u) {v : XWord}
    (hv : blockUnit u = some v) : CompletesWith i s (destReg i) v := by
  obtain ⟨hwf, rfl⟩ := (blockUnit_eq_some_iff h).mp hv
  have hfits := truncX_unitResult ((opLegal_of_drivesPorts h).trans hwf)
  rw [h.xlen] at hfits
  exact completesWith_of_issue (exec_eq_issue_unitResult h) hwf hfits

theorem raisesIllegal_of_not_wellFormed {i : Instr} {s : State} (h : i.wellFormed s.xlen = false) :
    RaisesIllegal i s := by
  obtain ⟨v, hv⟩ := exec_eq_issue i s
  exact ⟨_, hv.trans (issue_of_not_wellFormed h _ v), raiseIllegal_tookIllegal s (encode i)⟩

/-- Settles O23: the unit's value is the one issued, and its legality check is the instruction's. -/
theorem unitPortsAgreeWithExecution : Obligations.UnitPortsAgreeWithExecution := by
  intro i s u h
  have hnone := blockUnit_eq_none_iff h
  exact ⟨fun _ => completesWith_of_blockUnit h, fun hu => raisesIllegal_of_not_wellFormed (hnone.mp hu), hnone⟩

/-- The unit's inputs for an instruction in a state, the ports it ignores at 0. -/
def portsOf (i : Instr) (s : State) : UnitInput where
  op := i.op
  xlen := s.xlen
  a := ((sourceRegs i).map s.readReg)[0]?.getD 0
  b := ((sourceRegs i).map s.readReg)[1]?.getD 0
  bs := (slotField i).getD 0
  rnum := (roundField i).getD 0

theorem drivesPorts_portsOf (i : Instr) (s : State) : DrivesPorts i s (portsOf i s) where
  op := rfl
  xlen := rfl
  a r hr := by simp [portsOf, hr]
  b r hr := by simp [portsOf, hr]
  bs v hv := by simp [portsOf, hv]
  rnum v hv := by simp [portsOf, hv]

/-- The ports see of an instruction and a state only what R12 lists. -/
theorem portsOf_congr {i j : Instr} {s u : State} (hxlen : u.xlen = s.xlen) (hop : j.op = i.op)
    (hslot : slotField j = slotField i) (hround : roundField j = roundField i)
    (hsrc : (sourceRegs j).map u.readReg = (sourceRegs i).map s.readReg) : portsOf j u = portsOf i s := by
  simp only [portsOf, hxlen, hop, hslot, hround, hsrc]

/-- Settles O22: both instructions drive the unit alike, and each completes with the unit's result. -/
theorem resultDependsOnlyOnOperandsFieldAndXlen : Obligations.ResultDependsOnlyOnOperandsFieldAndXlen := by
  intro i j s u hwf hxlen hop hslot hround hsrc
  have hi := drivesPorts_portsOf i s
  have hj : DrivesPorts j u (portsOf i s) :=
    portsOf_congr hxlen hop hslot hround hsrc ▸ drivesPorts_portsOf j u
  have hunit := (blockUnit_eq_some_iff hi).mpr ⟨hwf, rfl⟩
  exact ⟨_, completesWith_of_blockUnit hi hunit, completesWith_of_blockUnit hj hunit⟩

end Sys2Proof.Machine
end

section
/-!
PROOFS for 10_state.md, R15 and R16: every operation a step is made of keeps the well-formed states, and so
does the step.
-/

namespace Sys2Proof.Machine

/-- Cutting to XLEN bits keeps the two low bits. -/
theorem aligned_truncX {v : XWord} (x : Xlen) (h : Aligned4 v) : Aligned4 (truncX x v) := by
  have hdvd : 4 ∣ 2 ^ xlenBits x := by cases x <;> decide
  rw [Aligned4, truncX_toNat_bits, Nat.mod_mod_of_dvd _ hdvd]
  exact h

theorem aligned_add_four {v : XWord} (h : Aligned4 v) : Aligned4 (v + 4) := by
  unfold Aligned4 at *
  bv_omega

/-- The registers after a write: x[rd] is the value cut to XLEN bits, unless rd is 0. -/
theorem writeReg_x_getElem (s : State) (rd : Reg) (v : XWord) {n : Nat} (hn : n < 32) :
    (s.writeReg rd v).x[n] = if rd.toNat = n ∧ n ≠ 0 then truncX s.xlen v else s.x[n] := by
  by_cases h0 : rd = 0#5
  · subst h0
    have : ¬ (0 = n ∧ n ≠ 0) := by omega
    simp [State.writeReg, this]
  · have hrd : rd.toNat ≠ 0 := fun h => h0 (BitVec.eq_of_toNat_eq h)
    by_cases h : rd.toNat = n
    · subst h; simp [State.writeReg, h0, hrd]
    · simp [State.writeReg, h0, h]

theorem State.WF.writeReg {s : State} (h : s.WF) (rd : Reg) (v : XWord) : (s.writeReg rd v).WF :=
  { h with
    x_zero := by rw [writeReg_x_getElem, if_neg (by simp)]; exact h.x_zero
    x_fits := fun r => by
      rw [Fin.getElem_fin, writeReg_x_getElem]
      split
      · exact fits_truncX _ v
      · exact h.x_fits r }

theorem State.WF.writePc {s : State} (h : s.WF) {target : XWord} (ht : Aligned4 target) :
    (s.writePc target).WF :=
  { h with
    pc_fits := fits_truncX _ target
    pc_aligned := aligned_truncX _ ht }

theorem State.WF.countRetired {s : State} (h : s.WF) : s.countRetired.WF := { h with }

/-- An instruction that completes keeps the well-formed states, whatever value it writes. -/
theorem State.WF.retire {s : State} (h : s.WF) (rd : Reg) (v : XWord) : (s.retire rd v).WF :=
  ((h.writeReg rd v).writePc (aligned_add_four (aligned_truncX _ h.pc_aligned))).countRetired

/-- Entry into M-mode saves a mode the host has. -/
theorem State.WF.enterM {s : State} (h : s.WF) {code : Nat} (hcode : FitsXlen s.xlen (BitVec.ofNat 64 code))
    (tval : XWord) : (s.enterM code tval).WF :=
  { h with
    pc_fits := fits_truncX _ _
    pc_aligned := aligned_truncX _ h.mtvec_aligned
    mode_has := rfl
    mpp_has := h.mode_has
    mepc_fits := fits_truncX _ _
    mepc_aligned := aligned_truncX _ h.pc_aligned
    mcause_fits := hcode
    mtval_fits := fits_truncX _ _ }

/-- Entry into S-mode: delegation says that the host has S-mode and that the mode saved is not M. -/
theorem State.WF.enterS {s : State} (h : s.WF) {code : Nat} (hcode : FitsXlen s.xlen (BitVec.ofNat 64 code))
    (hdel : s.delegates code = true) (tval : XWord) : (s.enterS code tval).WF := by
  obtain ⟨⟨hasS, -⟩, hmode⟩ : (s.hostModes.hasS = true ∧ s.medeleg.getLsbD code = true) ∧ s.mode ≠ .m := by
    simpa [State.delegates] using hdel
  exact
    { h with
      pc_fits := fits_truncX _ _
      pc_aligned := aligned_truncX _ h.stvec_aligned
      mode_has := hasS
      spp_not_m := hmode
      sepc_fits := fits_truncX _ _
      sepc_aligned := aligned_truncX _ h.pc_aligned
      scause_fits := hcode
      stval_fits := fits_truncX _ _ }

theorem State.WF.takeException {s : State} (h : s.WF) {code : Nat}
    (hcode : FitsXlen s.xlen (BitVec.ofNat 64 code)) (tval : XWord) : (s.takeException code tval).WF := by
  cases hdel : s.delegates code with
  | true => rw [takeException_of_delegates hdel]; exact h.enterS hcode hdel tval
  | false => rw [takeException_of_not_delegates hdel]; exact h.enterM hcode tval

theorem State.WF.raiseIllegal {s : State} (h : s.WF) (bits : Word) : (s.raiseIllegal bits).WF :=
  h.takeException (fits_of_lt _ (by decide)) _

/-- An instruction keeps the well-formed states, whether it completes or raises IllegalInstruction. -/
theorem State.WF.exec {s t : State} (h : s.WF) {i : Instr} (ht : exec i s = .next t) : t.WF := by
  rcases exec_cases i s with ⟨-, v, hv⟩ | ⟨-, hv⟩
  · obtain rfl : s.retire (destReg i) v = t := Host.Outcome.next.inj (hv.symm.trans ht)
    exact h.retire (destReg i) v
  · obtain rfl : s.raiseIllegal (encode i) = t := Host.Outcome.next.inj (hv.symm.trans ht)
    exact h.raiseIllegal (encode i)

/-- Settles O14: a step that goes on ran an instruction or raised IllegalInstruction. -/
theorem everyStepKeepsWellFormedStates : Obligations.EveryStepKeepsWellFormedStates := by
  intro s t h hstep
  obtain ⟨w, -, ⟨i, -, hexec⟩ | ⟨-, rfl⟩⟩ := step_next_cases hstep
  · exact h.exec hexec
  · exact h.raiseIllegal w

end Sys2Proof.Machine
end

section
/-!
PROOFS for 30_encoding.md, R32 and R33: no word selects two rows of the opcode map, so the word of an
instruction decodes to it.
-/

namespace Sys2Proof.Laws

/-- The row of each instruction's operation selects its word, and reads the instruction back from it. -/
theorem encodeMatch (i : Instr) : EncodeMatch.Statement i := by
  cases i with
  | clmul => exact EncodeMatch.clmul ..
  | clmulh => exact EncodeMatch.clmulh ..
  | aes32esi => exact EncodeMatch.aes32esi ..
  | aes32esmi => exact EncodeMatch.aes32esmi ..
  | aes32dsi => exact EncodeMatch.aes32dsi ..
  | aes32dsmi => exact EncodeMatch.aes32dsmi ..
  | aes64es => exact EncodeMatch.aes64es ..
  | aes64esm => exact EncodeMatch.aes64esm ..
  | aes64ds => exact EncodeMatch.aes64ds ..
  | aes64dsm => exact EncodeMatch.aes64dsm ..
  | aes64im => exact EncodeMatch.aes64im ..
  | aes64ks1i => exact EncodeMatch.aes64ks1i ..
  | aes64ks2 => exact EncodeMatch.aes64ks2 ..
  | sha256sig0 => exact EncodeMatch.sha256sig0 ..
  | sha256sig1 => exact EncodeMatch.sha256sig1 ..
  | sha256sum0 => exact EncodeMatch.sha256sum0 ..
  | sha256sum1 => exact EncodeMatch.sha256sum1 ..
  | sha512sig0 => exact EncodeMatch.sha512sig0 ..
  | sha512sig1 => exact EncodeMatch.sha512sig1 ..
  | sha512sum0 => exact EncodeMatch.sha512sum0 ..
  | sha512sum1 => exact EncodeMatch.sha512sum1 ..
  | sha512sig0h => exact EncodeMatch.sha512sig0h ..
  | sha512sig0l => exact EncodeMatch.sha512sig0l ..
  | sha512sig1h => exact EncodeMatch.sha512sig1h ..
  | sha512sig1l => exact EncodeMatch.sha512sig1l ..
  | sha512sum0r => exact EncodeMatch.sha512sum0r ..
  | sha512sum1r => exact EncodeMatch.sha512sum1r ..
  | sm3p0 => exact EncodeMatch.sm3p0 ..
  | sm3p1 => exact EncodeMatch.sm3p1 ..
  | sm4ed => exact EncodeMatch.sm4ed ..
  | sm4ks => exact EncodeMatch.sm4ks ..

/-- Any two rows of the map differ in a bit that both fix. -/
theorem opcodeRows_eq_of_agree : ∀ r ∈ opcodeRows, ∀ q ∈ opcodeRows,
    r.mtch &&& q.mask = q.mtch &&& r.mask → r = q := by decide

theorem opcodeRow_eq_of_selects {r q : OpcodeRow} (hr : r ∈ opcodeRows) (hq : q ∈ opcodeRows) {w : Word}
    (hrw : r.selects w = true) (hqw : q.selects w = true) : r = q := by
  have hrm : w &&& r.mask = r.mtch := eq_of_beq hrw
  have hqm : w &&& q.mask = q.mtch := eq_of_beq hqw
  refine opcodeRows_eq_of_agree r hr q hq ?_
  rw [← hrm, ← hqm, BitVec.and_assoc, BitVec.and_assoc, BitVec.and_comm r.mask]

theorem find?_opcodeRows_of_selects {r : OpcodeRow} (hr : r ∈ opcodeRows) {w : Word} (hw : r.selects w = true) :
    opcodeRows.find? (·.selects w) = some r := by
  have hsome : (opcodeRows.find? (·.selects w)).isSome = true := List.find?_isSome.mpr ⟨r, hr, hw⟩
  obtain ⟨q, hfind⟩ := Option.isSome_iff_exists.mp hsome
  have hqw := List.find?_some hfind
  rw [hfind, opcodeRow_eq_of_selects hr (List.mem_of_find?_eq_some hfind) hw hqw]

theorem rowInstr_encode (i : Instr) : rowInstr (encode i) = some i := by
  obtain ⟨r, hr, -, hselects, hread⟩ := encodeMatch i
  rw [rowInstr, find?_opcodeRows_of_selects hr hselects, Option.map_some, hread]

theorem decode_encode (x : Xlen) (i : Instr) :
    decode x (encode i) = if i.wellFormed x then .instr i else .illegal (encode i) := by
  simp only [decode, rowInstr_encode, legalAt_eq_wellFormed]

end Sys2Proof.Laws
end

section
/-!
PROOFS for 20_memory.md, R19 and R23: what a load and a fetch give after a store, the fetched instruction's
step, and that no instruction reads or writes memory.
-/

namespace Sys2Proof.Machine

/-! ### Bytes of values -/

theorem byteAt_ushiftRight_eight {w : Nat} (v : BitVec w) (k : Nat) : byteAt (v >>> 8) k = byteAt v (k + 1) := by
  ext j hj
  rw [byteAt, byteAt, BitVec.getElem_extractLsb', BitVec.getElem_extractLsb', BitVec.getLsbD_ushiftRight,
    show 8 + (8 * k + j) = 8 * (k + 1) + j by omega]

/-- `packBytes` taken apart at its lowest byte, where `State.memRead` starts. -/
theorem packBytes_succ_low (w n : Nat) (f : Nat → Byte) :
    packBytes w (n + 1) f = (f 0).setWidth w ||| packBytes w n (fun k => f (k + 1)) <<< 8 := by
  refine BitVec.eq_of_getLsbD_eq fun k hk => ?_
  rw [BitVec.getLsbD_or, BitVec.getLsbD_setWidth, BitVec.getLsbD_shiftLeft, getLsbD_packBytes, getLsbD_packBytes]
  by_cases hlow : k < 8
  · have hbyte : k / 8 = 0 := by omega
    have hbit : k % 8 = k := by omega
    simp [hk, hlow, hbyte, hbit]; omega
  · have hbyte : (k - 8) / 8 + 1 = k / 8 := by omega
    have hbit : (k - 8) % 8 = k % 8 := by omega
    have hn : k - 8 < 8 * n ↔ k < 8 * (n + 1) := by omega
    have hw : k - 8 < w := by omega
    have hout : (f 0).getLsbD k = false := BitVec.getLsbD_of_ge _ _ (by omega)
    simp [hk, hlow, hbyte, hbit, hn, hw, hout]

/-- The low n bytes of a value. -/
theorem toNat_packBytes_byteAt {w : Nat} (n : Nat) (v : BitVec w) :
    (packBytes w n (byteAt v)).toNat = v.toNat % 2 ^ (8 * n) := by
  refine Nat.eq_of_testBit_eq fun k => ?_
  have hk : 8 * (k / 8) + k % 8 = k := by omega
  have hbit : k % 8 < 8 := by omega
  rw [BitVec.testBit_toNat, Nat.testBit_mod_two_pow, BitVec.testBit_toNat, getLsbD_packBytes, byteAt,
    BitVec.getLsbD_extractLsb', hk]
  by_cases hw : k < w
  · simp [hw, hbit]
  · simp [hw, BitVec.getLsbD_of_ge v k (by omega)]

theorem toNat_byteAt {w : Nat} (v : BitVec w) (i : Nat) : (byteAt v i).toNat = v.toNat / 2 ^ (8 * i) % 2 ^ 8 := by
  rw [byteAt, BitVec.extractLsb'_toNat, Nat.shiftRight_eq_div_pow]

theorem toNat_append_eq_add {m n : Nat} (x : BitVec m) (y : BitVec n) :
    (x ++ y).toNat = x.toNat * 2 ^ n + y.toNat := by
  rw [BitVec.toNat_append, ← Nat.shiftLeft_add_eq_or_of_lt y.isLt, Nat.shiftLeft_eq]

theorem toNat_wordOfBytes (b0 b1 b2 b3 : Byte) : (wordOfBytes b0 b1 b2 b3).toNat =
    b0.toNat + b1.toNat * 2 ^ 8 + b2.toNat * 2 ^ 16 + b3.toNat * 2 ^ 24 := by
  simp only [wordOfBytes, toNat_append_eq_add]
  omega

/-- A word is made of the bytes of its 64-bit container. -/
theorem wordOfBytes_byteAt_setWidth (w : Word) :
    wordOfBytes (byteAt (w.setWidth 64) 0) (byteAt (w.setWidth 64) 1) (byteAt (w.setWidth 64) 2)
      (byteAt (w.setWidth 64) 3) = w := by
  have hfits := w.isLt
  refine BitVec.eq_of_toNat_eq ?_
  simp only [toNat_wordOfBytes, toNat_byteAt, BitVec.toNat_setWidth]
  omega

/-! ### Stores and loads -/

theorem add_one_add_ofNat (a : XWord) (k : Nat) : a + 1 + BitVec.ofNat 64 k = a + BitVec.ofNat 64 (k + 1) := by
  rw [BitVec.add_assoc, BitVec.add_comm 1, BitVec.ofNat_add]; rfl

/-- Addresses a short way apart stay apart when they wrap. -/
theorem memKey_add_ne (s : State) (a : XWord) {j k : Nat} (hj : j < 2 ^ 32) (hk : k < 2 ^ 32) (hne : j ≠ k) :
    s.memKey (a + BitVec.ofNat 64 j) ≠ s.memKey (a + BitVec.ofNat 64 k) := by
  simp only [State.memKey, truncX_toNat_bits, BitVec.toNat_add, BitVec.toNat_ofNat]
  cases s.xlen <;> simp only [xlenBits] <;> omega

/-- A store leaves every byte outside its n as it was. -/
theorem readByte_memWrite_of_ne {n : Nat} {s : State} {a b : XWord} (v : XWord)
    (hb : ∀ k < n, s.memKey b ≠ s.memKey (a + BitVec.ofNat 64 k)) :
    (s.memWrite a n v).readByte b = s.readByte b := by
  induction n generalizing s a v with
  | zero => rfl
  | succ n ih =>
    have hrest : ∀ k < n, s.memKey b ≠ s.memKey (a + 1 + BitVec.ofNat 64 k) := fun k hk => by
      rw [add_one_add_ofNat]; exact hb (k + 1) (by omega)
    have hfirst : s.memKey b ≠ s.memKey a := by simpa using hb 0 (by omega)
    calc (s.memWrite a (n + 1) v).readByte b
        = (s.writeByte a (byteAt v 0)).readByte b := ih (v >>> 8) hrest
      _ = s.readByte b := by rw [readByte_writeByte, if_neg hfirst]

/-- A store puts byte k of the value at address + k. -/
theorem readByte_memWrite {n : Nat} (hn : n ≤ 2 ^ 32) (s : State) (a v : XWord) {k : Nat} (hk : k < n) :
    (s.memWrite a n v).readByte (a + BitVec.ofNat 64 k) = some (byteAt v k) := by
  induction n generalizing s a v k with
  | zero => omega
  | succ n ih =>
    cases k with
    | zero =>
      have hrest : ∀ j < n, s.memKey (a + BitVec.ofNat 64 0) ≠ s.memKey (a + 1 + BitVec.ofNat 64 j) :=
        fun j hj => by rw [add_one_add_ofNat]; exact memKey_add_ne s a (by omega) (by omega) (by omega)
      calc (s.memWrite a (n + 1) v).readByte (a + BitVec.ofNat 64 0)
          = (s.writeByte a (byteAt v 0)).readByte (a + BitVec.ofNat 64 0) :=
            readByte_memWrite_of_ne (v >>> 8) hrest
        _ = some (byteAt v 0) := by rw [readByte_writeByte]; simp
    | succ k =>
      rw [← add_one_add_ofNat, ← byteAt_ushiftRight_eight]
      exact ih (by omega) _ (a + 1) (v >>> 8) (by omega)

/-- A load of bytes that have values packs them, the lowest address least significant. -/
theorem memRead_of_readByte {n : Nat} {s : State} {a : XWord} {f : Nat → Byte}
    (hf : ∀ k < n, s.readByte (a + BitVec.ofNat 64 k) = some (f k)) : s.memRead a n = some (packBytes 64 n f) := by
  induction n generalizing a f with
  | zero => rfl
  | succ n ih =>
    have hfirst : s.readByte a = some (f 0) := by simpa using hf 0 (by omega)
    have hrest : s.memRead (a + 1) n = some (packBytes 64 n fun k => f (k + 1)) :=
      ih fun k hk => by rw [add_one_add_ofNat]; exact hf (k + 1) (by omega)
    rw [State.memRead, hfirst, hrest, packBytes_succ_low]; rfl

/-- Settles O26: the bytes of the store, their packing, and its frame. -/
theorem storeThenLoadIsLittleEndian : Obligations.StoreThenLoadIsLittleEndian := by
  intro s a v n hn
  have hbytes : ∀ k < n, (s.memWrite a n v).readByte (a + BitVec.ofNat 64 k) = some (byteAt v k) :=
    fun k hk => readByte_memWrite (by omega) s a v hk
  exact ⟨hbytes, ⟨_, memRead_of_readByte hbytes, toNat_packBytes_byteAt n v⟩,
    fun _ hb => readByte_memWrite_of_ne v hb⟩

/-! ### Fetching -/

theorem extractLsb'_low_two_of_aligned {v : XWord} (h : Aligned4 v) : v.extractLsb' 0 2 = 0 := by
  refine BitVec.eq_of_toNat_eq ?_
  rw [BitVec.extractLsb'_toNat, Nat.shiftRight_zero]
  exact h

/-- The fetch at an aligned pc whose four bytes have values. -/
theorem fetchWord_of_readByte {s : State} {f : Nat → Byte} (hpc : Aligned4 s.readPc)
    (hf : ∀ k < 4, s.readByte (s.readPc + BitVec.ofNat 64 k) = some (f k)) :
    s.fetchWord = .ok (wordOfBytes (f 0) (f 1) (f 2) (f 3)) := by
  have hbyte {k : Nat} (hk : k < 4) : byteAt (packBytes 64 4 f) k = f k :=
    byteAt_packBytes 64 4 f k hk (by decide)
  simp only [State.fetchWord, extractLsb'_low_two_of_aligned hpc, memRead_of_readByte hf, if_true]
  rw [hbyte (by decide), hbyte (by decide), hbyte (by decide), hbyte (by decide)]

/-- Settles O9: the four bytes as the first four of a list. -/
theorem fetchReadsFourLittleEndianBytes : Obligations.FetchReadsFourLittleEndianBytes := by
  intro s b0 b1 b2 b3 hpc h0 h1 h2 h3
  have hf : ∀ k < 4, s.readByte (s.readPc + BitVec.ofNat 64 k) = some ([b0, b1, b2, b3].getD k 0) := by
    intro k hk
    match k, hk with
    | 0, _ => exact (congrArg s.readByte (BitVec.add_zero _)).trans h0
    | 1, _ => exact h1
    | 2, _ => exact h2
    | 3, _ => exact h3
  exact ⟨_, fetchWord_of_readByte hpc hf, toNat_wordOfBytes b0 b1 b2 b3⟩

/-- Placing a word moves no pc. -/
theorem withFetchWord_readPc (s : State) (nbits w : Nat) : (s.withFetchWord nbits w).readPc = s.readPc := by
  rw [State.withFetchWord, memWrite_mem]; rfl

/-- A word placed at an aligned pc is fetched. -/
theorem fetchWord_withFetchWord {s : State} (hpc : Aligned4 s.readPc) (w : Word) :
    (s.withFetchWord 32 w.toNat).fetchWord = .ok w := by
  have hvalue : BitVec.ofNat 64 (w.toNat % 2 ^ 32) = w.setWidth 64 := by
    rw [Nat.mod_eq_of_lt w.isLt, BitVec.ofNat_toNat]
  have hbytes : ∀ k < 4, (s.withFetchWord 32 w.toNat).readByte
      ((s.withFetchWord 32 w.toNat).readPc + BitVec.ofNat 64 k) = some (byteAt (w.setWidth 64) k) :=
    fun k hk => by
      rw [withFetchWord_readPc, State.withFetchWord, hvalue]
      exact readByte_memWrite (by decide) s s.readPc _ hk
  rw [← withFetchWord_readPc s 32 w.toNat] at hpc
  rw [fetchWord_of_readByte hpc hbytes, wordOfBytes_byteAt_setWidth]

/-- A step at an instruction's word runs the instruction, also where the decoder finds it illegal: the
instruction then raises the same exception itself. -/
theorem step_of_fetchWord_encode {s : State} {i : Instr} (h : s.fetchWord = .ok (encode i)) :
    step s = exec i s := by
  have hdecode := Laws.decode_encode s.xlen i
  rcases exec_cases i s with ⟨hwf, -⟩ | ⟨hwf, hexec⟩
  · exact stepRunsTheDecodedInstruction s _ i h (by simpa [hwf] using hdecode)
  · simp only [step, h, hdecode, hwf, hexec, Bool.false_eq_true, if_false]

/-- Settles O11: the placed word is fetched, and it is the instruction's. -/
theorem placedInstructionIsFetchedAndRun : Obligations.PlacedInstructionIsFetchedAndRun := by
  intro s i hpc
  have hfetch := fetchWord_withFetchWord hpc (encode i)
  exact ⟨hfetch, step_of_fetchWord_encode hfetch⟩

/-! ### No instruction reads or writes memory -/

theorem raiseIllegal_mem (s : State) (bits : Word) : (s.raiseIllegal bits).mem = s.mem := by
  unfold State.raiseIllegal State.takeException
  split <;> rfl

/-- Trap entry reads no memory. -/
theorem raiseIllegal_withMem (s : State) (m : List Host.Cell) (bits : Word) :
    ({ s with mem := m } : State).raiseIllegal bits = { s.raiseIllegal bits with mem := m } := by
  have hsame : ({ s with mem := m } : State).delegates illegalInstructionCode =
      s.delegates illegalInstructionCode := rfl
  unfold State.raiseIllegal State.takeException
  rw [hsame]
  split <;> rfl

/-- Completing reads no memory. -/
theorem retire_withMem (s : State) (m : List Host.Cell) (rd : Reg) (v : XWord) :
    ({ s with mem := m } : State).retire rd v = { s.retire rd v with mem := m } := rfl

/-- Every instruction issues one value, whatever memory holds: the unit's ports carry no memory. -/
theorem exec_withMem_eq_issue (i : Instr) (s : State) (m : List Host.Cell) :
    exec i { s with mem := m } =
      ({ s with mem := m } : State).issue i (destReg i) (unitResult (portsOf i s)) :=
  exec_eq_issue_unitResult (drivesPorts_portsOf i { s with mem := m })

/-- Settles O24: one value is issued whatever memory holds, and neither completing nor trap entry touches
memory. -/
theorem noInstructionReadsOrWritesMemory : Obligations.NoInstructionReadsOrWritesMemory := by
  intro i s m
  have hs := exec_eq_issue_unitResult (drivesPorts_portsOf i s)
  cases hwf : i.wellFormed s.xlen with
  | true =>
    have hwfm : i.wellFormed ({ s with mem := m } : State).xlen = true := hwf
    refine ⟨_, hs.trans (issue_of_wellFormed hwf _ _), ?_, rfl⟩
    rw [exec_withMem_eq_issue, issue_of_wellFormed hwfm, retire_withMem]
  | false =>
    have hwfm : i.wellFormed ({ s with mem := m } : State).xlen = false := hwf
    refine ⟨_, hs.trans (issue_of_not_wellFormed hwf _ _), ?_, raiseIllegal_mem s _⟩
    rw [exec_withMem_eq_issue, issue_of_not_wellFormed hwfm, raiseIllegal_withMem]

end Sys2Proof.Machine
end

section
/-!
PROOFS for 30_encoding.md, R27 to R35: the formats of the instructions' words, decoding by any
row a word selects, and the instruction read from a row's word as the one the word encodes.
-/

namespace Sys2Proof.Laws

/-! ### Words that agree on a field -/

/-- Words that agree on two adjacent fields agree on both together. -/
theorem extractLsb'_eq_of_adjacent {v w : Word} {start m : Nat} (n : Nat)
    (low : v.extractLsb' start m = w.extractLsb' start m)
    (high : v.extractLsb' (start + m) n = w.extractLsb' (start + m) n) :
    v.extractLsb' start (n + m) = w.extractLsb' start (n + m) := by
  rw [← BitVec.extractLsb'_append_extractLsb'_eq_extractLsb' rfl, low, high,
    BitVec.extractLsb'_append_extractLsb'_eq_extractLsb' rfl]

/-- Words that agree under a mask agree on every field the mask covers. -/
theorem extractLsb'_eq_of_and_eq {v w mask : Word} {start len : Nat} (h : v &&& mask = w &&& mask)
    (hmask : mask.extractLsb' start len = BitVec.allOnes len) :
    v.extractLsb' start len = w.extractLsb' start len := by
  have hfield := congrArg (·.extractLsb' start len) h
  simpa only [BitVec.extractLsb'_and, hmask, BitVec.and_allOnes] using hfield

/-! ### The fields a format holds (R27 to R30) -/

theorem opcode_encodeR (f7 : BitVec 7) (f3 : BitVec 3) (rd rs1 rs2 : Reg) :
    (encodeR f7 f3 rd rs1 rs2).extractLsb' 0 7 = 0b0110011 := BitVec.extractLsb'_append_eq_right

theorem opcode_encodeRbs (f5 : BitVec 5) (rd rs1 rs2 : Reg) (bs : BitVec 2) :
    (encodeRbs f5 rd rs1 rs2 bs).extractLsb' 0 7 = 0b0110011 := BitVec.extractLsb'_append_eq_right

theorem opcode_encodeIunary (f12 : BitVec 12) (rd rs1 : Reg) :
    (encodeIunary f12 rd rs1).extractLsb' 0 7 = 0b0010011 := BitVec.extractLsb'_append_eq_right

theorem opcode_encodeIrnum (rd rs1 : Reg) (rnum : BitVec 4) :
    (encodeIrnum rd rs1 rnum).extractLsb' 0 7 = 0b0010011 := BitVec.extractLsb'_append_eq_right

/-- In every format funct3 stands above rd and the opcode, twelve bits in all. -/
theorem funct3_of_append {n : Nat} (high : BitVec n) (f3 : BitVec 3) (rd : Reg) (opcode : BitVec 7) :
    (high ++ f3 ++ rd ++ opcode).extractLsb' 12 3 = f3 := by
  rw [BitVec.extractLsb'_append_eq_of_le (by decide), BitVec.extractLsb'_append_eq_of_le (by decide)]
  exact BitVec.extractLsb'_append_eq_right

theorem funct8_encodeIrnum (rd rs1 : Reg) (rnum : BitVec 4) :
    (encodeIrnum rd rs1 rnum).extractLsb' 24 8 = 0b00110001 :=
  have hfixed := (encodeIrnum_mask rd rs1 rnum).trans (encodeIrnum_mask 0 0 0).symm
  (extractLsb'_eq_of_and_eq hfixed (by decide)).trans (by decide)

theorem hasFormatR_of_encode {i : Instr} {f7 : BitVec 7} {f3 : BitVec 3} {rd rs1 rs2 : Reg} {mtch : Word}
    (h : encode i = encodeR f7 f3 rd rs1 rs2) (hm : encodeR f7 f3 0 0 0 = mtch) :
    Machine.HasFormatR i mtch rd rs1 rs2 := by
  rw [Machine.HasFormatR, h]
  exact ⟨(encodeR_mask ..).trans hm, rdField_encodeR .., rs1Field_encodeR .., rs2Field_encodeR ..,
    opcode_encodeR ..⟩

theorem hasFormatRbs_of_encode {i : Instr} {f5 : BitVec 5} {rd rs1 rs2 : Reg} {bs : BitVec 2} {mtch : Word}
    (h : encode i = encodeRbs f5 rd rs1 rs2 bs) (hm : encodeRbs f5 0 0 0 0 = mtch) :
    Machine.HasFormatRbs i mtch rd rs1 rs2 bs := by
  rw [Machine.HasFormatRbs, h]
  exact ⟨(encodeRbs_mask ..).trans hm, rdField_encodeRbs .., rs1Field_encodeRbs .., rs2Field_encodeRbs ..,
    bsField_encodeRbs .., funct3_of_append .., opcode_encodeRbs ..⟩

theorem hasFormatIunary_of_encode {i : Instr} {f12 : BitVec 12} {rd rs1 : Reg} {mtch : Word}
    (h : encode i = encodeIunary f12 rd rs1) (hm : encodeIunary f12 0 0 = mtch) :
    Machine.HasFormatIunary i mtch rd rs1 := by
  rw [Machine.HasFormatIunary, h]
  exact ⟨(encodeIunary_mask ..).trans hm, rdField_encodeIunary .., rs1Field_encodeIunary ..,
    funct3_of_append .., opcode_encodeIunary ..⟩

theorem hasFormatIrnum_of_encode {i : Instr} {rd rs1 : Reg} {rnum : BitVec 4}
    (h : encode i = encodeIrnum rd rs1 rnum) : Machine.HasFormatIrnum i 0x31001013 rd rs1 rnum := by
  rw [Machine.HasFormatIrnum, h]
  exact ⟨(encodeIrnum_mask ..).trans (by decide), rdField_encodeIrnum .., rs1Field_encodeIrnum ..,
    rnumField_encodeIrnum .., funct8_encodeIrnum .., funct3_of_append .., opcode_encodeIrnum ..⟩

/-- Settles O5: the format of each instruction, and its row's match as the word with every field zero. -/
theorem instructionWordsHaveTheirFormats : Obligations.InstructionWordsHaveTheirFormats := by
  intro rd rs1 rs2 bs rnum
  exact ⟨
    -- clmul, clmulh
    hasFormatR_of_encode rfl rfl, hasFormatR_of_encode rfl rfl,
    -- aes32
    hasFormatRbs_of_encode rfl rfl, hasFormatRbs_of_encode rfl rfl,
    hasFormatRbs_of_encode rfl rfl, hasFormatRbs_of_encode rfl rfl,
    -- aes64
    hasFormatR_of_encode rfl rfl, hasFormatR_of_encode rfl rfl,
    hasFormatR_of_encode rfl rfl, hasFormatR_of_encode rfl rfl,
    hasFormatIunary_of_encode rfl rfl, hasFormatIrnum_of_encode rfl,
    hasFormatR_of_encode rfl rfl,
    -- sha256
    hasFormatIunary_of_encode rfl rfl, hasFormatIunary_of_encode rfl rfl,
    hasFormatIunary_of_encode rfl rfl, hasFormatIunary_of_encode rfl rfl,
    -- sha512, direct then split forms
    hasFormatIunary_of_encode rfl rfl, hasFormatIunary_of_encode rfl rfl,
    hasFormatIunary_of_encode rfl rfl, hasFormatIunary_of_encode rfl rfl,
    hasFormatR_of_encode rfl rfl, hasFormatR_of_encode rfl rfl,
    hasFormatR_of_encode rfl rfl, hasFormatR_of_encode rfl rfl,
    hasFormatR_of_encode rfl rfl, hasFormatR_of_encode rfl rfl,
    -- sm3
    hasFormatIunary_of_encode rfl rfl, hasFormatIunary_of_encode rfl rfl,
    -- sm4
    hasFormatRbs_of_encode rfl rfl, hasFormatRbs_of_encode rfl rfl⟩

/-! ### The rows of the map (R32) -/

/-- The map has one row for an operation. -/
theorem opcodeRows_op_nodup : (opcodeRows.map (·.op)).Nodup := by decide

theorem opcodeRow_eq_of_op_eq {r q : OpcodeRow} (hr : r ∈ opcodeRows) (hq : q ∈ opcodeRows)
    (h : r.op = q.op) : r = q := List.inj_on_of_nodup_map opcodeRows_op_nodup hr hq h

/-- Settles O3: two rows that one word selects fix no bit differently. -/
theorem opcodeMapRowsShareNoWord : Obligations.OpcodeMapRowsShareNoWord :=
  ⟨rfl, opcodeRows_op_nodup, fun _ hr _ hq _ => opcodeRow_eq_of_selects hr hq⟩

/-! ### Decoding by the selected row (R33) -/

theorem decode_of_selects {r : OpcodeRow} (hr : r ∈ opcodeRows) {w : Word} (hw : r.selects w = true) (x : Xlen) :
    decode x w = if legalAt x (instrOf r.op w) then .instr (instrOf r.op w) else .illegal w := by
  simp only [decode, rowInstr, find?_opcodeRows_of_selects hr hw, Option.map_some]

theorem decode_of_no_row {w : Word} (h : ∀ r ∈ opcodeRows, r.selects w = false) (x : Xlen) :
    decode x w = .notThisBlock w := by
  have hnone : opcodeRows.find? (·.selects w) = none := List.find?_eq_none.mpr fun r hr => by simp [h r hr]
  simp only [decode, rowInstr, hnone, Option.map_none]

@[simp] theorem op_instrOf (op : Op) (w : Word) : (instrOf op w).op = op := by cases op <;> rfl

theorem destReg_instrOf (op : Op) (w : Word) : Machine.destReg (instrOf op w) = rdField w := by
  cases op <;> rfl

theorem sourceRegs_instrOf (op : Op) (w : Word) :
    Machine.sourceRegs (instrOf op w) = [rs1Field w] ∨
    Machine.sourceRegs (instrOf op w) = [rs1Field w, rs2Field w] := by
  cases op with
  | aes64im | aes64ks1i | sha256sig0 | sha256sig1 | sha256sum0 | sha256sum1
  | sha512sig0 | sha512sig1 | sha512sum0 | sha512sum1 | sm3p0 | sm3p1 => exact .inl rfl
  | _ => exact .inr rfl

theorem slotField_instrOf {op : Op} {w : Word} {v : BitVec 2}
    (h : Machine.slotField (instrOf op w) = some v) : v = bsField w := by
  cases op with
  | aes32esi | aes32esmi | aes32dsi | aes32dsmi | sm4ed | sm4ks => exact (Option.some.inj h).symm
  | _ => cases h

theorem roundField_instrOf {op : Op} {w : Word} {v : BitVec 4}
    (h : Machine.roundField (instrOf op w) = some v) : v = rnumField w := by
  cases op with
  | aes64ks1i => exact (Option.some.inj h).symm
  | _ => cases h

/-- The decoder's check on a row's word, as the two checks of R33. -/
theorem legalAt_instrOf (x : Xlen) (op : Op) (w : Word) :
    legalAt x (instrOf op w) = true ↔
      opExistsAt x op = true ∧ ¬ (op = .aes64ks1i ∧ (rnumField w).toNat > 0xA) := by
  rw [legalAt, op_instrOf, opLegal, Bool.and_eq_true]
  refine and_congr_right fun _ => ?_
  cases op with
  | aes64ks1i => simp [opSelectorLegal, instrOf, Instr.rnumOrZero, BitVec.lt_def]
  | _ => simp [opSelectorLegal]

/-- Settles O4: the selected row decides, and its instruction's fields are those of the word. -/
theorem decodeFollowsTheOpcodeMap : Obligations.DecodeFollowsTheOpcodeMap := by
  intro x w
  refine ⟨fun r hr hw => ⟨?_, op_instrOf .., destReg_instrOf .., ?_, ?_, fun _ => slotField_instrOf,
    fun _ => roundField_instrOf⟩, fun h => ?_⟩
  · have hlegal := legalAt_instrOf x r.op w
    rw [decode_of_selects hr (EncodeMatch.selects_of_mask hw)]
    by_cases hx : opExistsAt x r.op = false
    · simp [hlegal, hx]
    · by_cases hrnum : r.op = .aes64ks1i ∧ (w.extractLsb' 20 4).toNat > 0xA
      · rw [if_neg hx, if_pos hrnum, if_neg (fun h => (hlegal.mp h).2 hrnum)]
      · rw [if_neg hx, if_neg hrnum, if_pos (hlegal.mpr ⟨by simpa using hx, hrnum⟩)]
  · rcases sourceRegs_instrOf r.op w with h | h <;> rw [h] <;> rfl
  · intro q hq
    rcases sourceRegs_instrOf r.op w with h | h <;> rw [h] at hq
    · cases hq
    · exact (Option.some.inj hq).symm
  · exact decode_of_no_row (fun r hr => beq_false_of_ne (h r hr)) x

/-! ### The decoder inverts the encoder (R33, R34) -/

/-- Settles O1: each instruction's own row selects its word, and reads the instruction back from it. -/
theorem decodeOfEncodeIsTheInstruction : Obligations.DecodeOfEncodeIsTheInstruction := decode_encode

/-- The mask of an operation's format: the bits that are no field of it. -/
def formatMask : Op → Word
  | .aes32esi | .aes32esmi | .aes32dsi | .aes32dsmi | .sm4ed | .sm4ks => 0x3E00707F
  | .aes64ks1i => 0xFF00707F
  | .aes64im | .sha256sig0 | .sha256sig1 | .sha256sum0 | .sha256sum1 => 0xFFF0707F
  | .sha512sig0 | .sha512sig1 | .sha512sum0 | .sha512sum1 | .sm3p0 | .sm3p1 => 0xFFF0707F
  | .clmul | .clmulh | .aes64es | .aes64esm | .aes64ds | .aes64dsm | .aes64ks2 => 0xFE00707F
  | .sha512sig0h | .sha512sig0l | .sha512sig1h | .sha512sig1l | .sha512sum0r | .sha512sum1r => 0xFE00707F

theorem mask_eq_formatMask : ∀ r ∈ opcodeRows, r.mask = formatMask r.op := by decide

/-- The low 20 bits are the same in every format: rs1 and rd, and between and below them fixed bits. -/
theorem low20_eq_of_fields {v w : Word} {op : Op} (hfixed : v &&& formatMask op = w &&& formatMask op)
    (hrd : rdField v = rdField w) (hrs1 : rs1Field v = rs1Field w) :
    v.extractLsb' 0 20 = w.extractLsb' 0 20 := by
  have covers : (formatMask op).extractLsb' 0 7 = BitVec.allOnes 7 ∧
      (formatMask op).extractLsb' 12 3 = BitVec.allOnes 3 := by cases op <;> decide
  obtain ⟨hopcode, hfunct3⟩ := covers
  have to12 := extractLsb'_eq_of_adjacent 5 (extractLsb'_eq_of_and_eq hfixed hopcode) hrd
  have to15 := extractLsb'_eq_of_adjacent 3 to12 (extractLsb'_eq_of_and_eq hfixed hfunct3)
  exact extractLsb'_eq_of_adjacent 5 to15 hrs1

/-- A word is its format's fixed bits and the fields the instruction of its row holds. -/
theorem eq_of_instrOf_eq {v w : Word} {op : Op} (hfixed : v &&& formatMask op = w &&& formatMask op)
    (h : instrOf op v = instrOf op w) : v = w := by
  suffices whole : v.extractLsb' 0 32 = w.extractLsb' 0 32 by simpa using whole
  cases op with
  | clmul | clmulh | aes64es | aes64esm | aes64ds | aes64dsm | aes64ks2
  | sha512sig0h | sha512sig0l | sha512sig1h | sha512sig1l | sha512sum0r | sha512sum1r =>
    injection h with hrd hrs1 hrs2
    have to25 := extractLsb'_eq_of_adjacent 5 (low20_eq_of_fields hfixed hrd hrs1) hrs2
    exact extractLsb'_eq_of_adjacent 7 to25 (extractLsb'_eq_of_and_eq hfixed (by decide))
  | aes32esi | aes32esmi | aes32dsi | aes32dsmi | sm4ed | sm4ks =>
    injection h with hrd hrs1 hrs2 hbs
    have to25 := extractLsb'_eq_of_adjacent 5 (low20_eq_of_fields hfixed hrd hrs1) hrs2
    have to30 := extractLsb'_eq_of_adjacent 5 to25 (extractLsb'_eq_of_and_eq hfixed (by decide))
    exact extractLsb'_eq_of_adjacent 2 to30 hbs
  | aes64ks1i =>
    injection h with hrd hrs1 hrnum
    have to24 := extractLsb'_eq_of_adjacent 4 (low20_eq_of_fields hfixed hrd hrs1) hrnum
    exact extractLsb'_eq_of_adjacent 8 to24 (extractLsb'_eq_of_and_eq hfixed (by decide))
  | aes64im | sha256sig0 | sha256sig1 | sha256sum0 | sha256sum1
  | sha512sig0 | sha512sig1 | sha512sum0 | sha512sum1 | sm3p0 | sm3p1 =>
    injection h with hrd hrs1
    exact extractLsb'_eq_of_adjacent 12 (low20_eq_of_fields hfixed hrd hrs1)
      (extractLsb'_eq_of_and_eq hfixed (by decide))

/-- A word that selects a row is the word of the instruction the row reads from it. -/
theorem encode_instrOf_of_selects {r : OpcodeRow} (hr : r ∈ opcodeRows) {w : Word} (hw : r.selects w = true) :
    encode (instrOf r.op w) = w := by
  obtain ⟨q, hq, hop, hsel, hread⟩ := encodeMatch (instrOf r.op w)
  obtain rfl : q = r := opcodeRow_eq_of_op_eq hq hr (hop.trans (op_instrOf ..))
  refine eq_of_instrOf_eq ?_ hread
  rw [← mask_eq_formatMask q hr]
  exact (eq_of_beq hsel).trans (eq_of_beq hw).symm

theorem encode_ne_of_no_row {w : Word} (h : ∀ r ∈ opcodeRows, r.selects w = false) (i : Instr) :
    encode i ≠ w := by
  rintro rfl
  obtain ⟨r, hr, -, hsel, -⟩ := encodeMatch i
  exact Bool.false_ne_true ((h r hr).symm.trans hsel)

/-- Settles O2: the word of a row is that of the row's instruction, and a word of no row is no instruction's. -/
theorem everyWordIsAnInstructionsWordOrNotThisBlock :
    Obligations.EveryWordIsAnInstructionsWordOrNotThisBlock := by
  intro x w
  by_cases hrow : ∃ r ∈ opcodeRows, r.selects w = true
  · obtain ⟨r, hr, hw⟩ := hrow
    refine .inl ⟨instrOf r.op w, encode_instrOf_of_selects hr hw, ?_⟩
    rw [decode_of_selects hr hw, legalAt_eq_wellFormed]
  · have hnone : ∀ r ∈ opcodeRows, r.selects w = false :=
      fun r hr => Bool.eq_false_iff.mpr fun hw => hrow ⟨r, hr, hw⟩
    exact .inr ⟨encode_ne_of_no_row hnone, decode_of_no_row hnone x⟩

/-! ### Words written out (R35) -/

theorem decode_eq_instr {x : Xlen} {w : Word} {i : Instr} (hw : encode i = w) (hwf : i.wellFormed x = true) :
    decode x w = .instr i := by rw [← hw, decode_encode, if_pos hwf]

theorem decode_eq_illegal {x : Xlen} {w : Word} (i : Instr) (hw : encode i = w)
    (hwf : i.wellFormed x = false) : decode x w = .illegal w := by
  rw [← hw, decode_encode, hwf, if_neg Bool.false_ne_true]

/-- Settles O6: each word is that of the instruction listed, or of the ill-formed one named here, or it
selects no row. -/
theorem specWordsDecodeAsListed : Obligations.SpecWordsDecodeAsListed :=
  ⟨decode_eq_instr rfl rfl, decode_eq_instr rfl rfl, decode_eq_instr rfl rfl,
    decode_eq_illegal (.aes32esi 10 11 12 3) rfl rfl, decode_eq_illegal (.aes64es 10 11 12) rfl rfl,
    decode_eq_instr rfl rfl, decode_eq_instr rfl rfl,
    decode_eq_illegal (.aes64ks1i 10 11 11) rfl rfl, decode_eq_illegal (.aes64ks1i 10 11 15) rfl rfl,
    decode_eq_instr rfl rfl, decode_eq_instr rfl rfl, decode_eq_instr rfl rfl, decode_eq_instr rfl rfl,
    decode_eq_instr rfl rfl, decode_of_no_row (by decide) _, decode_of_no_row (by decide) _,
    decode_of_no_row (by decide) _, decode_of_no_row (by decide) _⟩

end Sys2Proof.Laws
end

section
/-!
PROOFS for 40_gf_sbox.md, R37 to R40: maps that respect XOR and induction over the bits of a value, the laws of
the GF(2^8) multiplier, its product as a remainder modulo 0x11B, and the inverter.
-/

namespace Sys2Proof.Machine

/-! ### Values as XORs of single bits -/

/-- A property of 0 and of every single bit that XOR keeps holds of every value. -/
theorem xor_induction {w : Nat} {P : BitVec w → Prop} (zero : P 0#w) (bit : ∀ i < w, P (BitVec.twoPow w i))
    (xor : ∀ v u, P v → P u → P (v ^^^ u)) (v : BitVec w) : P v := by
  have low : ∀ n ≤ w, P ((v.setWidth n).setWidth w) := by
    intro n hn
    induction n with
    | zero =>
      have hnil : (v.setWidth 0).setWidth w = 0#w := by ext k hk; simp
      rwa [hnil]
    | succ n ih =>
      cases hbit : v.getLsbD n
      · rw [BitVec.setWidth_setWidth_succ_eq_setWidth_setWidth_of_getLsbD_false hbit]
        exact ih (by omega)
      · have hsplit : (v.setWidth (n + 1)).setWidth w = (v.setWidth n).setWidth w ^^^ BitVec.twoPow w n := by
          ext k hk
          rcases eq_or_ne k n with rfl | hkn
          · simpa [BitVec.getElem_twoPow] using hbit
          · have hlt : k < n + 1 ↔ k < n := by omega
            simp [BitVec.getElem_twoPow, hlt, hkn]
        rw [hsplit]
        exact xor _ _ (ih (by omega)) (bit n (by omega))
  simpa using low w le_rfl

/-- A map that respects XOR: linear over GF(2). -/
def XorHom {v w : Nat} (f : BitVec v → BitVec w) : Prop := ∀ x y, f (x ^^^ y) = f x ^^^ f y

theorem XorHom.map_zero {v w : Nat} {f : BitVec v → BitVec w} (hf : XorHom f) : f 0#v = 0#w := by
  simpa only [BitVec.xor_self] using hf 0#v 0#v

theorem XorHom.comp {u v w : Nat} {g : BitVec v → BitVec w} {f : BitVec u → BitVec v} (hg : XorHom g)
    (hf : XorHom f) : XorHom (g ∘ f) := fun x y => (congrArg g (hf x y)).trans (hg _ _)

/-- Two linear maps that agree on the single bits are equal. -/
theorem XorHom.eq_of_twoPow {v w : Nat} {f g : BitVec v → BitVec w} (hf : XorHom f) (hg : XorHom g)
    (h : ∀ i < v, f (BitVec.twoPow v i) = g (BitVec.twoPow v i)) (x : BitVec v) : f x = g x := by
  induction x using xor_induction with
  | zero => rw [hf.map_zero, hg.map_zero]
  | bit i hi => exact h i hi
  | xor x y hx hy => rw [hf, hg, hx, hy]

/-! ### xtime and the multiplier (R38, R39) -/

theorem ite_xor_zero {w : Nat} (p q : Bool) (t : BitVec w) :
    (if (p ^^ q) = true then t else 0#w) = (if p = true then t else 0#w) ^^^ (if q = true then t else 0#w) := by
  cases p <;> cases q <;> simp

theorem xtime_xor : XorHom xtime := by
  intro a b
  have hconst := ite_xor_zero (a.getLsbD 7) (b.getLsbD 7) 0x1B#8
  simp only [xtime, BitVec.getLsbD_xor, BitVec.shiftLeft_xor_distrib, BitVec.ofNat_eq_ofNat, hconst]
  ac_rfl

/-- The loop of R39 with its sum taken outside the choice. -/
theorem gfMulLoop_cons (b : Byte) (i : Nat) (is : List Nat) (t r : Byte) :
    gfMulLoop b (i :: is) t r = gfMulLoop b is (xtime t) (r ^^^ if b.getLsbD i then t else 0#8) := by
  rw [gfMulLoop]
  cases b.getLsbD i <;> simp

/-- The loop is linear in the factor whose bits it reads, together with the sum. -/
theorem gfMulLoop_xor_factor (b c : Byte) (is : List Nat) (t r r' : Byte) :
    gfMulLoop (b ^^^ c) is t (r ^^^ r') = gfMulLoop b is t r ^^^ gfMulLoop c is t r' := by
  induction is generalizing t r r' with
  | nil => rfl
  | cons i is ih =>
    rw [gfMulLoop_cons, gfMulLoop_cons, gfMulLoop_cons, ← ih, BitVec.getLsbD_xor, ite_xor_zero]
    ac_rfl

/-- The loop is linear in the running product together with the sum. -/
theorem gfMulLoop_xor_product (b : Byte) (is : List Nat) (t t' r r' : Byte) :
    gfMulLoop b is (t ^^^ t') (r ^^^ r') = gfMulLoop b is t r ^^^ gfMulLoop b is t' r' := by
  induction is generalizing t t' r r' with
  | nil => rfl
  | cons i is ih =>
    have hsum : (if b.getLsbD i then r ^^^ r' ^^^ (t ^^^ t') else r ^^^ r') =
        (if b.getLsbD i then r ^^^ t else r) ^^^ (if b.getLsbD i then r' ^^^ t' else r') := by
      cases b.getLsbD i <;> simp; ac_rfl
    rw [gfMulLoop, gfMulLoop, gfMulLoop, xtime_xor, hsum, ih]

/-- A linear map that commutes with xtime passes through the loop. -/
theorem gfMulLoop_map {f : Byte → Byte} (hf : XorHom f) (hx : ∀ t, f (xtime t) = xtime (f t)) (b : Byte)
    (is : List Nat) (t r : Byte) : f (gfMulLoop b is t r) = gfMulLoop b is (f t) (f r) := by
  induction is generalizing t r with
  | nil => rfl
  | cons i is ih => rw [gfMulLoop, gfMulLoop, ih, hx, apply_ite f, hf]

theorem gfMul_xor_right (a : Byte) : XorHom (gfMul a) := fun b c => gfMulLoop_xor_factor b c _ a 0 0

theorem gfMul_xor_left (a c b : Byte) : gfMul (a ^^^ c) b = gfMul a b ^^^ gfMul c b :=
  gfMulLoop_xor_product b _ a c 0 0

/-- A linear map that commutes with xtime is linear over the whole field. -/
theorem map_gfMul {f : Byte → Byte} (hf : XorHom f) (hx : ∀ t, f (xtime t) = xtime (f t)) (a b : Byte) :
    f (gfMul a b) = gfMul (f a) b := by
  rw [gfMul, gfMulLoop_map hf hx, show f 0x00 = 0x00 from hf.map_zero, gfMul]

theorem xtime_gfMul (a b : Byte) : xtime (gfMul a b) = gfMul (xtime a) b := map_gfMul xtime_xor (fun _ => rfl) a b

theorem gfMul_one_left (b : Byte) : gfMul 0x01 b = b :=
  (gfMul_xor_right 0x01).eq_of_twoPow (g := id) (fun _ _ => rfl) (by decide) b

/-- Multiplication by a on the right is linear over the field, so it is multiplication by its value at 1. -/
theorem gfMul_comm (a b : Byte) : gfMul a b = gfMul b a := by
  have hlinear := map_gfMul (f := (gfMul · a)) (fun b c => gfMul_xor_left b c a)
    (fun t => (xtime_gfMul t a).symm) 0x01 b
  simpa only [gfMul_one_left] using hlinear.symm

theorem gfMul_assoc (a b c : Byte) : gfMul (gfMul a b) c = gfMul a (gfMul b c) := by
  have hxtime : ∀ t, gfMul a (xtime t) = xtime (gfMul a t) := fun t => by
    rw [gfMul_comm, ← xtime_gfMul, gfMul_comm]
  exact (map_gfMul (gfMul_xor_right a) hxtime b c).symm

theorem gfMul_one_right (a : Byte) : gfMul a 0x01 = a := by rw [gfMul_comm, gfMul_one_left]

theorem gfMul_zero_right (a : Byte) : gfMul a 0#8 = 0#8 := (gfMul_xor_right a).map_zero

theorem xtime_eq_gfMul (a : Byte) : xtime a = gfMul a 0x02 := by
  calc xtime a = xtime (gfMul 0x01 a) := by rw [gfMul_one_left]
    _ = gfMul 0x02 a := xtime_gfMul 0x01 a
    _ = gfMul a 0x02 := gfMul_comm 0x02 a

/-! ### The remainder modulo 0x11B (R37, R39) -/

theorem clmulSum_xor_right {w : Nat} (a b c : BitVec w) (is : List Nat) :
    clmulSum a (b ^^^ c) is = clmulSum a b is ^^^ clmulSum a c is := by
  induction is with
  | nil => exact BitVec.xor_self.symm
  | cons i is ih =>
    have hbit := ite_xor_zero (b.getLsbD i) (c.getLsbD i) (a.setWidth (2 * w) <<< i)
    simp only [clmulSum, ih, BitVec.getLsbD_xor, BitVec.ofNat_eq_ofNat, hbit]
    ac_rfl

theorem clmulFull_twoPow {w : Nat} (a : BitVec w) {i : Nat} (hi : i < w) :
    clmulFull a (BitVec.twoPow w i) = a.setWidth (2 * w) <<< i := by
  have bits : ∀ is : List Nat, is.Nodup → (∀ j ∈ is, j < w) →
      clmulSum a (BitVec.twoPow w i) is = if i ∈ is then a.setWidth (2 * w) <<< i else 0 := by
    intro is
    induction is with
    | nil => intros; rfl
    | cons j is ih =>
      intro hnodup hlt
      obtain ⟨hj, hnodup⟩ := List.nodup_cons.mp hnodup
      rw [clmulSum, ih hnodup fun k hk => hlt k (.tail _ hk), BitVec.getLsbD_twoPow]
      rcases eq_or_ne i j with rfl | hij
      · simp [hj, hi]
      · simp [hij]
  rw [clmulFull, bits _ List.nodup_range (by simp), if_pos (List.mem_range.mpr hi)]

theorem clmulFull_xor_right {w : Nat} (a : BitVec w) : XorHom (clmulFull a) := fun b c => clmulSum_xor_right a b c _

/-- The product with m(x), by its five terms. -/
def timesModulus (v : BitVec 32) : BitVec 32 := v ^^^ v <<< 1 ^^^ v <<< 3 ^^^ v <<< 4 ^^^ v <<< 8

theorem clmulFull_modulus (q : Byte) : clmulFull (q.setWidth 16) 0x011B = timesModulus (q.setWidth 32) := by
  have hterms : 0x011B#16 = .twoPow 16 0 ^^^ .twoPow 16 1 ^^^ .twoPow 16 3 ^^^ .twoPow 16 4 ^^^ .twoPow 16 8 := by
    decide
  simp [hterms, clmulFull_xor_right _ _ _, clmulFull_twoPow, timesModulus]

theorem timesModulus_xor : XorHom timesModulus := by
  intro v u
  simp only [timesModulus, BitVec.shiftLeft_xor_distrib]
  ac_rfl

theorem timesModulus_shiftLeft_one (v : BitVec 32) : timesModulus v <<< 1 = timesModulus (v <<< 1) := by
  simp only [timesModulus, BitVec.shiftLeft_xor_distrib, ← BitVec.shiftLeft_add, Nat.add_comm]

/-- The bit that xtime shifts out is worth one m(x). -/
theorem setWidth_shiftLeft_one_eq_xtime (t : Byte) : t.setWidth 32 <<< 1 =
    timesModulus ((if t.getLsbD 7 then 1#8 else 0#8).setWidth 32) ^^^ (xtime t).setWidth 32 := by
  revert t; decide

/-- a · x^i is a multiple of m(x) plus xtime^i(a), and the quotient has degree below i. -/
theorem exists_quotient_of_shift (a : Byte) {i : Nat} (hi : i ≤ 8) : ∃ q : Byte, q.toNat < 2 ^ i ∧
    a.setWidth 32 <<< i = timesModulus (q.setWidth 32) ^^^ ((xtime^[i]) a).setWidth 32 := by
  induction i with
  | zero => exact ⟨0#8, by decide, by simp [timesModulus]⟩
  | succ i ih =>
    obtain ⟨q, hq, hshift⟩ := ih (by omega)
    have hpow : 2 ^ i ≤ 2 ^ 7 := Nat.pow_le_pow_right (by decide) (by omega)
    have hlow : q.toNat <<< 1 % 2 ^ 8 = 2 * q.toNat := by rw [Nat.shiftLeft_eq]; omega
    have hdouble : q.setWidth 32 <<< 1 = (q <<< 1).setWidth 32 := by
      apply BitVec.eq_of_toNat_eq
      simp only [BitVec.toNat_shiftLeft, BitVec.toNat_setWidth, Nat.shiftLeft_eq]
      omega
    generalize htop : (if ((xtime^[i]) a).getLsbD 7 then 1#8 else 0#8) = top
    have htop_lt : top.toNat < 2 ^ (i + 1) := by
      rw [← htop]; split <;> simp
    refine ⟨q <<< 1 ^^^ top, ?_, ?_⟩
    · rw [BitVec.toNat_xor, BitVec.toNat_shiftLeft, hlow]
      exact Nat.xor_lt_two_pow (by omega) htop_lt
    · rw [BitVec.shiftLeft_add, hshift, BitVec.shiftLeft_xor_distrib, timesModulus_shiftLeft_one, hdouble,
        setWidth_shiftLeft_one_eq_xtime, htop, ← Function.iterate_succ_apply' xtime, ← BitVec.xor_assoc,
        ← timesModulus_xor, ← BitVec.setWidth_xor]

theorem gfMul_twoPow (a : Byte) {i : Nat} (hi : i < 8) : gfMul a (.twoPow 8 i) = (xtime^[i]) a := by
  have twoPow_eq : ∀ i < 8, BitVec.twoPow 8 i = (xtime^[i]) 0x01 := by decide
  have hiterate (n : Nat) : gfMul a ((xtime^[n]) 0x01) = (xtime^[n]) a := by
    induction n with
    | zero => exact gfMul_one_right a
    | succ n ih =>
      rw [Function.iterate_succ_apply', Function.iterate_succ_apply', ← ih, gfMul_comm, ← xtime_gfMul, gfMul_comm]
  rw [twoPow_eq i hi, hiterate]

/-- R39: the multiplier computes the remainder of the carry-less product by m(x). -/
theorem exists_quotient (a b : Byte) : ∃ q : Byte, clmulFull (a.setWidth 16) (b.setWidth 16) =
    timesModulus (q.setWidth 32) ^^^ (gfMul a b).setWidth 32 := by
  induction b using xor_induction with
  | zero =>
    have hzero := (clmulFull_xor_right (a.setWidth 16)).map_zero
    exact ⟨0#8, by simp [gfMul_zero_right, timesModulus, hzero]⟩
  | bit i hi =>
    obtain ⟨q, -, hshift⟩ := exists_quotient_of_shift a hi.le
    have hbit : (BitVec.twoPow 8 i).setWidth 16 = .twoPow 16 i := by
      ext k hk; simp [BitVec.getElem_twoPow, hi, eq_comm (a := i)]
    have hwide : (a.setWidth 16).setWidth (2 * 16) = a.setWidth 32 := by
      ext k hk; simp
    refine ⟨q, ?_⟩
    rw [hbit, clmulFull_twoPow _ (by omega), hwide, gfMul_twoPow a hi, ← hshift]
  | xor b c hb hc =>
    obtain ⟨q, hq⟩ := hb
    obtain ⟨p, hp⟩ := hc
    refine ⟨q ^^^ p, ?_⟩
    rw [BitVec.setWidth_xor, clmulFull_xor_right, hq, hp, BitVec.setWidth_xor, timesModulus_xor,
      gfMul_xor_right, BitVec.setWidth_xor]
    ac_rfl

/-- Settles O29: the laws above, with the quotient of the whole product from those of its bits. -/
theorem gfMultiplierIsTheAesField : Obligations.GfMultiplierIsTheAesField := by
  refine ⟨fun a b => ?_, gfMul_comm, gfMul_assoc, gfMul_xor_right,
    fun a => ⟨gfMul_one_right a, gfMul_zero_right a, xtime_eq_gfMul a⟩, by decide, by decide, by decide⟩
  obtain ⟨q, hq⟩ := exists_quotient a b
  exact ⟨q, hq.trans (congrArg (· ^^^ _) (clmulFull_modulus q).symm)⟩

/-! ### The inverter (R40)

Squaring respects XOR, so a^256 = a need only be checked on single bits; with an inverse of a at hand this gives
a^254. The inverse is read off the S-box table by undoing the affine map of R41. -/

theorem gfPow_succ (a : Byte) (n : Nat) : gfPow a (n + 1) = gfMul a (gfPow a n) := rfl

theorem gfPow_add (a : Byte) (m n : Nat) : gfPow a (m + n) = gfMul (gfPow a m) (gfPow a n) := by
  induction m with
  | zero => rw [Nat.zero_add]; exact (gfMul_one_left _).symm
  | succ m ih => rw [Nat.add_right_comm, gfPow_succ, ih, gfPow_succ, gfMul_assoc]

theorem gfPow_eq_foldr (a : Byte) (n : Nat) : gfPow a n = (List.replicate n a).foldr gfMul 0x01 := by
  induction n with
  | zero => rfl
  | succ n ih => rw [gfPow_succ, ih, List.replicate_succ, List.foldr_cons]

/-- Squaring: the Frobenius map of the field. -/
def gfSquare (a : Byte) : Byte := gfMul a a

theorem gfSquare_xor : XorHom gfSquare := by
  intro a b
  have hcross : gfMul a b ^^^ gfMul b a = 0#8 := by rw [gfMul_comm, BitVec.xor_self]
  calc gfSquare (a ^^^ b) = (gfMul a a ^^^ gfMul b a) ^^^ (gfMul a b ^^^ gfMul b b) := by
        rw [gfSquare, gfMul_xor_right, gfMul_xor_left, gfMul_xor_left]
    _ = (gfMul a b ^^^ gfMul b a) ^^^ (gfSquare a ^^^ gfSquare b) := by rw [gfSquare, gfSquare]; ac_rfl
    _ = gfSquare a ^^^ gfSquare b := by rw [hcross, BitVec.zero_xor]

theorem gfPow_two_pow (a : Byte) (n : Nat) : gfPow a (2 ^ n) = (gfSquare^[n]) a := by
  induction n with
  | zero => exact gfMul_one_right a
  | succ n ih => rw [pow_succ, mul_two, gfPow_add, ih, Function.iterate_succ_apply', gfSquare]

theorem XorHom.iterate {w : Nat} {f : BitVec w → BitVec w} (hf : XorHom f) (n : Nat) : XorHom f^[n] := by
  induction n with
  | zero => exact fun _ _ => rfl
  | succ n ih => exact ih.comp hf

theorem gfPow_card (a : Byte) : gfPow a 256 = a := by
  have hfrobenius : ∀ i < 8, (gfSquare^[8]) (.twoPow 8 i) = .twoPow 8 i := by decide
  calc gfPow a 256 = (gfSquare^[8]) a := gfPow_two_pow a 8
    _ = a := (gfSquare_xor.iterate 8).eq_of_twoPow (g := id) (fun _ _ => rfl) hfrobenius a

/-- From a · b = 1 and a^256 = a: a^254 = b · b · a^256 = b. -/
theorem gfInv_eq_of_gfMul_eq_one {a b : Byte} (h : gfMul a b = 0x01) : gfInv a = b := by
  have hcancel (c : Byte) : gfMul b (gfMul a c) = c := by
    rw [← gfMul_assoc, gfMul_comm b a, h, gfMul_one_left]
  calc gfInv a = gfMul b (gfMul b (gfPow a 256)) := by
        rw [gfPow_succ, gfPow_succ, hcancel, hcancel, gfInv]
    _ = b := by rw [gfPow_card, gfMul_comm b a, h, gfMul_one_right]

theorem gfInv_zero : gfInv 0x00 = 0x00 := by
  rw [gfInv, gfPow_succ, gfMul_comm]; exact gfMul_zero_right _

/-- The affine map of R41. -/
def aesAffine (b : Byte) : Byte :=
  b ^^^ b.rotateLeft 1 ^^^ b.rotateLeft 2 ^^^ b.rotateLeft 3 ^^^ b.rotateLeft 4 ^^^ 0x63

/-- Its inverse. -/
def aesAffineInv (y : Byte) : Byte := y.rotateLeft 1 ^^^ y.rotateLeft 3 ^^^ y.rotateLeft 6 ^^^ 0x05

theorem aesAffine_aesAffineInv (y : Byte) : aesAffine (aesAffineInv y) = y := by
  revert y; decide

theorem gfMul_aesAffineInv_aesSbox : ∀ a : Byte, a ≠ 0 → gfMul a (aesAffineInv (aesSbox a)) = 0x01 := by decide

theorem gfInv_eq_aesAffineInv_aesSbox (a : Byte) : gfInv a = aesAffineInv (aesSbox a) := by
  rcases eq_or_ne a 0 with rfl | ha
  · rw [gfInv_zero]; decide
  · exact gfInv_eq_of_gfMul_eq_one (gfMul_aesAffineInv_aesSbox a ha)

/-- Settles O30: the S-box table holds an inverse, and every inverse is a^254. -/
theorem gfInverterGivesTheInverse : Obligations.GfInverterGivesTheInverse := by
  refine ⟨fun a ha => ⟨?_, fun b hb => (gfInv_eq_of_gfMul_eq_one hb).symm⟩, fun a => gfPow_eq_foldr a 254,
    gfInv_zero, gfInv_eq_of_gfMul_eq_one (by decide), gfInv_eq_of_gfMul_eq_one (by decide),
    gfInv_eq_of_gfMul_eq_one (by decide)⟩
  rw [gfInv_eq_aesAffineInv_aesSbox, gfMul_aesAffineInv_aesSbox a ha]

end Sys2Proof.Machine
end

section
/-!
PROOFS for 40_gf_sbox.md, R41 to R43 and R48: the tables. The AES S-box undoes the affine map of the inverter,
the inverse tables undo the S-boxes, and the round constants are powers of x.
-/

namespace Sys2Proof.Machine

/-- Settles O31: the inverter is the S-box with the affine map undone. -/
theorem aesSboxIsTheAffineMapOfTheInverse : Obligations.AesSboxIsTheAffineMapOfTheInverse := by
  refine ⟨fun v => ?_, by decide, by decide⟩
  rw [gfInv_eq_aesAffineInv_aesSbox]
  exact (aesAffine_aesAffineInv (aesSbox v)).symm

/-- Settles O32: the two tables, compared entry by entry. -/
theorem aesInverseSboxInvertsTheSbox : Obligations.AesInverseSboxInvertsTheSbox := by
  unfold Obligations.AesInverseSboxInvertsTheSbox
  decide

/-- The inverse of the SM4 S-box, in the layout of R41. -/
def sm4InvSboxTable : List (BitVec 128) := [
  0x716C7AB8160F1E4135EBD02AE4AC625A,
  0xCDC8DB1A0A8E0846F04B96C132A060CC,
  0xF76D69AA61681B760CA914100ED8A3B7,
  0x9BD29A28955F79B286FEF46B4A06FB3E,
  0x84CB212B19B37240FF1CE35B78F6AE4E,
  0x22BF77AD29975D736549CEBECA9263FA,
  0xA78D2F6455E8A51150E1BA51BDBCEDAF,
  0x5C54BB45D93C13E66EF827D66AF2E7C7,
  0x3852A448EF4D1D6FD3E082579DC0B63D,
  0x0124C3993A37E5E2261F1294205E7F74,
  0x7C8F678893D43F424F3318AB2E9891C2,
  0xDF9E5331DE870907DCE947C4C6D71581,
  0xA8D10B177DECEE857E34A6FD04D58B2D,
  0xDA66837570B000FCCFC956B1F5C5B439,
  0x9005A29F30DD4C7B36028059F32CF925,
  0xF1EA8A44239CA189588C3B0D43B503B9]

theorem sm4Sbox_tableLookup_inv : ∀ u : Byte, sm4Sbox (tableLookup sm4InvSboxTable u) = u := by decide

/-- Settles O33: the inverse table makes the S-box surjective, and the bytes are finite. -/
theorem sm4SboxIsAPermutation : Obligations.Sm4SboxIsAPermutation := by
  have hsurjective : Function.Surjective sm4Sbox := fun u => ⟨_, sm4Sbox_tableLookup_inv u⟩
  have hinjective : Function.Injective sm4Sbox := Finite.injective_iff_surjective.mpr hsurjective
  exact ⟨fun _ _ h => hinjective h, hsurjective, by decide, by decide, by decide⟩

/-- Settles O37: each of the sixteen numbers in turn. -/
theorem roundConstantsAreThePowersOfX : Obligations.RoundConstantsAreThePowersOfX := by
  unfold Obligations.RoundConstantsAreThePowersOfX
  decide

end Sys2Proof.Machine
end

section
/-!
PROOFS for 40_gf_sbox.md, R44 to R47: substitution byte by byte, the column functions as circulant matrices over
GF(2^8) and the row functions as permutations of bytes.
-/

namespace Sys2Proof.Machine

/-! ### Bytes of joined and cut values -/

theorem byteAt_append_low {m n : Nat} (x : BitVec m) (y : BitVec n) {i : Nat} (hi : 8 * (i + 1) ≤ n) :
    byteAt (x ++ y) i = byteAt y i := by
  ext j hj
  have hlow : 8 * i + j < n := by omega
  simp [byteAt, BitVec.getLsbD_append, hlow]

theorem byteAt_append_high {m n k : Nat} (x : BitVec m) (y : BitVec n) (hn : n = 8 * k) (i : Nat) :
    byteAt (x ++ y) (k + i) = byteAt x i := by
  ext j hj
  have hhigh : ¬ 8 * (k + i) + j < n := by omega
  have hrest : 8 * (k + i) + j - n = 8 * i + j := by omega
  simp [byteAt, BitVec.getLsbD_append, hhigh, hrest]

theorem byteAt_extractLsb' {w : Nat} (v : BitVec w) (k len : Nat) {i : Nat} (hi : 8 * (i + 1) ≤ len) :
    byteAt (v.extractLsb' (8 * k) len) i = byteAt v (k + i) := by
  ext j hj
  have hin : 8 * i + j < len := by omega
  have hpos : 8 * k + (8 * i + j) = 8 * (k + i) + j := by omega
  simp [byteAt, hin, hpos]

theorem byteAt_setWidth {w : Nat} (v : BitVec w) (len : Nat) {i : Nat} (hi : 8 * (i + 1) ≤ len) :
    byteAt (v.setWidth len) i = byteAt v i := by
  ext j hj
  have hin : 8 * i + j < len := by omega
  simp [byteAt, hin]

theorem byteAt_lowWord (v : Dword) {i : Nat} (hi : i < 4) : byteAt (lowWord v) i = byteAt v i :=
  byteAt_setWidth v 32 (by omega)

theorem byteAt_highWord (v : Dword) {i : Nat} (hi : i < 4) : byteAt (highWord v) i = byteAt v (4 + i) :=
  byteAt_extractLsb' v 4 32 (by omega)

theorem byteAt_xor {w : Nat} (v u : BitVec w) (i : Nat) : byteAt (v ^^^ u) i = byteAt v i ^^^ byteAt u i :=
  BitVec.extractLsb'_xor

theorem byteAt_wordOfBytes (b0 b1 b2 b3 : Byte) {i : Nat} (hi : i < 4) :
    byteAt (wordOfBytes b0 b1 b2 b3) i = [b0, b1, b2, b3].getD i 0 := by
  have hself (b : Byte) : byteAt b 0 = b := by simp [byteAt]
  interval_cases i
  · exact (byteAt_append_low _ b0 (by decide)).trans (hself b0)
  · exact (byteAt_append_high (k := 1) _ b0 rfl 0).trans ((byteAt_append_low _ b1 (by decide)).trans (hself b1))
  · exact (byteAt_append_high (k := 1) _ b0 rfl 1).trans ((byteAt_append_high (k := 1) _ b1 rfl 0).trans
      ((byteAt_append_low _ b2 (by decide)).trans (hself b2)))
  · exact (byteAt_append_high (k := 1) _ b0 rfl 2).trans ((byteAt_append_high (k := 1) _ b1 rfl 1).trans
      ((byteAt_append_high (k := 1) _ b2 rfl 0).trans (hself b3)))

/-! ### Word substitution (R44) -/

theorem byteAt_subBytes {w : Nat} (table : Byte → Byte) {n : Nat} (v : BitVec w) (hn : 8 * n ≤ w) {i : Nat}
    (hi : i < n) : byteAt (subBytes table n v) i = table (byteAt v i) := byteAt_packBytes w n _ i hi hn

theorem subBytes_eq_onColumns (table : Byte → Byte) (d : Dword) :
    subBytes table 8 d = onColumns (fun w => subBytes table 4 w) d := by
  refine eq_of_byteAt 8 _ _ (by decide) fun i hi => ?_
  rw [byteAt_subBytes table d (by decide) hi, onColumns]
  rcases Nat.lt_or_ge i 4 with hlow | hhigh
  · rw [byteAt_append_low _ _ (by omega), byteAt_subBytes table _ (by decide) hlow, byteAt_lowWord d hlow]
  · obtain ⟨j, rfl⟩ := Nat.exists_eq_add_of_le hhigh
    have hj : j < 4 := by omega
    rw [byteAt_append_high (k := 4) _ _ rfl, byteAt_subBytes table _ (by decide) hj, byteAt_highWord d hj]

/-- Settles O34: the bytes of a substituted value, and equality byte by byte. -/
theorem wordSubstitutionActsOnEachByte : Obligations.WordSubstitutionActsOnEachByte :=
  ⟨fun table w _ hi => byteAt_subBytes table w (by decide) hi,
    fun table d _ hi => byteAt_subBytes table d (by decide) hi,
    fun w _ hi => ⟨byteAt_subBytes aesSbox w (by decide) hi, byteAt_subBytes aesInvSbox w (by decide) hi⟩,
    subBytes_eq_onColumns⟩

/-! ### Columns (R45, R46)

Both column functions are circulant: row r is one sum of coefficients times the bytes r, r + 1, r + 2, r + 3. So
they are linear and commute with rotating the column by whole bytes, and a column is the sum of its bytes, each
rotated into place. -/

/-- Row r of the circulant matrix with first row k0 k1 k2 k3, applied to a column. -/
def mixRow (k0 k1 k2 k3 : Byte) (c : Word) (r : Nat) : Byte :=
  gfMul k0 (byteAt c r) ^^^ gfMul k1 (byteAt c ((r + 1) % 4)) ^^^ gfMul k2 (byteAt c ((r + 2) % 4)) ^^^
    gfMul k3 (byteAt c ((r + 3) % 4))

/-- The circulant matrix applied to a column. -/
def mixColumn (k0 k1 k2 k3 : Byte) (c : Word) : Word := packBytes 32 4 (mixRow k0 k1 k2 k3 c)

theorem byteAt_mixColumn (k0 k1 k2 k3 : Byte) (c : Word) {r : Nat} (hr : r < 4) :
    byteAt (mixColumn k0 k1 k2 k3 c) r = mixRow k0 k1 k2 k3 c r := byteAt_packBytes 32 4 _ r hr (by decide)

theorem mixColumn_eq_wordOfBytes (k0 k1 k2 k3 : Byte) (c : Word) : mixColumn k0 k1 k2 k3 c =
    wordOfBytes (mixRow k0 k1 k2 k3 c 0) (mixRow k0 k1 k2 k3 c 1) (mixRow k0 k1 k2 k3 c 2)
      (mixRow k0 k1 k2 k3 c 3) := by
  refine eq_of_byteAt 4 _ _ (by decide) fun r hr => ?_
  rw [byteAt_mixColumn _ _ _ _ _ hr, byteAt_wordOfBytes _ _ _ _ hr]
  interval_cases r <;> rfl

theorem aesMixcolumnFwd_eq_mixColumn (c : Word) : aesMixcolumnFwd c = mixColumn 2 3 1 1 c := by
  rw [mixColumn_eq_wordOfBytes]
  simp only [mixRow, gfMul_one_left, aesMixcolumnFwd, wordOfBytes, Nat.reduceAdd, Nat.reduceMod]
  ac_rfl

theorem aesMixcolumnInv_eq_mixColumn (c : Word) : aesMixcolumnInv c = mixColumn 0xE 0xB 0xD 0x9 c := by
  rw [mixColumn_eq_wordOfBytes]
  simp only [mixRow, aesMixcolumnInv, wordOfBytes, Nat.reduceAdd, Nat.reduceMod]
  ac_rfl

theorem mixColumn_xor (k0 k1 k2 k3 : Byte) : XorHom (mixColumn k0 k1 k2 k3) := by
  intro c d
  refine eq_of_byteAt 4 _ _ (by decide) fun r hr => ?_
  simp only [byteAt_xor, byteAt_mixColumn _ _ _ _ _ hr, mixRow, gfMul_xor_right _ _ _]
  ac_rfl

theorem byteAt_rotateLeft (c : Word) {n i : Nat} (hn : n < 4) (hi : i < 4) :
    byteAt (c.rotateLeft (8 * n)) i = byteAt c ((i + 4 - n) % 4) := by
  ext j hj
  have hbit := getLsbD_ror c ((32 - 8 * n % 32) % 32) (k := 8 * i + j) (by omega)
  have hpos : (8 * i + j + (32 - 8 * n % 32) % 32) % 32 = 8 * ((i + 4 - n) % 4) + j := by omega
  rw [← rol_eq_rotateLeft, rol, byteAt, byteAt, BitVec.getElem_extractLsb', BitVec.getElem_extractLsb', hbit, hpos]

theorem mixColumn_rotateLeft (k0 k1 k2 k3 : Byte) (c : Word) {n : Nat} (hn : n < 4) :
    mixColumn k0 k1 k2 k3 (c.rotateLeft (8 * n)) = (mixColumn k0 k1 k2 k3 c).rotateLeft (8 * n) := by
  refine eq_of_byteAt 4 _ _ (by decide) fun r hr => ?_
  have hshift (k : Nat) : byteAt (c.rotateLeft (8 * n)) ((r + k) % 4) = byteAt c (((r + 4 - n) % 4 + k) % 4) := by
    rw [byteAt_rotateLeft c hn (Nat.mod_lt _ (by decide))]
    congr 1; omega
  rw [byteAt_rotateLeft _ hn hr, byteAt_mixColumn _ _ _ _ _ hr, byteAt_mixColumn _ _ _ _ _ (Nat.mod_lt _ (by decide)),
    mixRow, mixRow, hshift, hshift, hshift, byteAt_rotateLeft c hn hr]

theorem byteAt_byte_setWidth (b : Byte) (i : Nat) : byteAt (b.setWidth 32) i = if i = 0 then b else 0#8 := by
  rcases eq_or_ne i 0 with rfl | hi
  · rw [byteAt_setWidth b 32 (by decide)]; simp [byteAt]
  · rw [if_neg hi]
    ext j hj
    simp [byteAt, BitVec.getLsbD_of_ge b (8 * i + j) (by omega)]

theorem eq_xor_rotateLeft_bytes (c : Word) : c = (byteAt c 0).setWidth 32 ^^^
    ((byteAt c 1).setWidth 32).rotateLeft (8 * 1) ^^^ ((byteAt c 2).setWidth 32).rotateLeft (8 * 2) ^^^
    ((byteAt c 3).setWidth 32).rotateLeft (8 * 3) := by
  refine eq_of_byteAt 4 _ _ (by decide) fun i hi => ?_
  rw [byteAt_xor, byteAt_xor, byteAt_xor, byteAt_rotateLeft _ (by decide) hi, byteAt_rotateLeft _ (by decide) hi,
    byteAt_rotateLeft _ (by decide) hi]
  simp only [byteAt_byte_setWidth]
  interval_cases i <;> simp

/-- A column function is the sum of its images of single bytes, each rotated into place. -/
theorem mixColumn_eq_xor_rotateLeft (k0 k1 k2 k3 : Byte) (c : Word) : mixColumn k0 k1 k2 k3 c =
    mixColumn k0 k1 k2 k3 ((byteAt c 0).setWidth 32) ^^^
      (mixColumn k0 k1 k2 k3 ((byteAt c 1).setWidth 32)).rotateLeft 8 ^^^
      (mixColumn k0 k1 k2 k3 ((byteAt c 2).setWidth 32)).rotateLeft 16 ^^^
      (mixColumn k0 k1 k2 k3 ((byteAt c 3).setWidth 32)).rotateLeft 24 := by
  conv_lhs => rw [eq_xor_rotateLeft_bytes c]
  rw [mixColumn_xor, mixColumn_xor, mixColumn_xor, mixColumn_rotateLeft _ _ _ _ _ (by decide),
    mixColumn_rotateLeft _ _ _ _ _ (by decide), mixColumn_rotateLeft _ _ _ _ _ (by decide)]

/-- The image of one byte in row 0 is a column of the matrix. -/
theorem mixColumn_setWidth (k0 k1 k2 k3 b : Byte) : mixColumn k0 k1 k2 k3 (b.setWidth 32) =
    gfMul b k1 ++ gfMul b k2 ++ gfMul b k3 ++ gfMul b k0 := by
  rw [mixColumn_eq_wordOfBytes]
  simp [mixRow, byteAt_byte_setWidth, gfMul_zero_right, gfMul_comm b, wordOfBytes]

theorem aesMixcolumnFwd_setWidth (b : Byte) : aesMixcolumnFwd (b.setWidth 32) = aesMixcolumnByteFwd b := by
  rw [aesMixcolumnFwd_eq_mixColumn, mixColumn_setWidth, gfMul_one_right, aesMixcolumnByteFwd]

theorem aesMixcolumnInv_setWidth (b : Byte) : aesMixcolumnInv (b.setWidth 32) = aesMixcolumnByteInv b := by
  rw [aesMixcolumnInv_eq_mixColumn, mixColumn_setWidth, aesMixcolumnByteInv]

theorem aesMixcolumnFwd_eq_xor_rotateLeft (c : Word) : aesMixcolumnFwd c = aesMixcolumnByteFwd (byteAt c 0) ^^^
    (aesMixcolumnByteFwd (byteAt c 1)).rotateLeft 8 ^^^ (aesMixcolumnByteFwd (byteAt c 2)).rotateLeft 16 ^^^
      (aesMixcolumnByteFwd (byteAt c 3)).rotateLeft 24 := by
  simp only [← aesMixcolumnFwd_setWidth, aesMixcolumnFwd_eq_mixColumn]
  exact mixColumn_eq_xor_rotateLeft _ _ _ _ c

theorem aesMixcolumnInv_eq_xor_rotateLeft (c : Word) : aesMixcolumnInv c = aesMixcolumnByteInv (byteAt c 0) ^^^
    (aesMixcolumnByteInv (byteAt c 1)).rotateLeft 8 ^^^ (aesMixcolumnByteInv (byteAt c 2)).rotateLeft 16 ^^^
      (aesMixcolumnByteInv (byteAt c 3)).rotateLeft 24 := by
  simp only [← aesMixcolumnInv_setWidth, aesMixcolumnInv_eq_mixColumn]
  exact mixColumn_eq_xor_rotateLeft _ _ _ _ c

theorem byteAt_aesMixcolumnFwd (c : Word) {r : Nat} (hr : r < 4) : byteAt (aesMixcolumnFwd c) r =
    gfMul 2 (byteAt c r) ^^^ gfMul 3 (byteAt c ((r + 1) % 4)) ^^^ byteAt c ((r + 2) % 4) ^^^
      byteAt c ((r + 3) % 4) := by
  rw [aesMixcolumnFwd_eq_mixColumn, byteAt_mixColumn _ _ _ _ c hr, mixRow, gfMul_one_left, gfMul_one_left]

theorem byteAt_aesMixcolumnInv (c : Word) {r : Nat} (hr : r < 4) :
    byteAt (aesMixcolumnInv c) r = mixRow 0xE 0xB 0xD 0x9 c r := by
  rw [aesMixcolumnInv_eq_mixColumn, byteAt_mixColumn _ _ _ _ c hr]

/-- The product of the two matrices is 1: both functions are linear, so single bits decide. -/
theorem aesMixcolumnInv_aesMixcolumnFwd (c : Word) : aesMixcolumnInv (aesMixcolumnFwd c) = c := by
  have hbits : ∀ i < 32, mixColumn 0xE 0xB 0xD 0x9 (mixColumn 2 3 1 1 (.twoPow 32 i)) = .twoPow 32 i := by decide
  rw [aesMixcolumnInv_eq_mixColumn, aesMixcolumnFwd_eq_mixColumn]
  exact ((mixColumn_xor _ _ _ _).comp (mixColumn_xor _ _ _ _)).eq_of_twoPow (g := id) (fun _ _ => rfl) hbits c

/-- Settles O35: both functions as circulant matrices, by rows and by columns. -/
theorem mixColumnsAndItsInverse : Obligations.MixColumnsAndItsInverse :=
  ⟨fun c _ hr => ⟨byteAt_aesMixcolumnFwd c hr, byteAt_aesMixcolumnInv c hr⟩, aesMixcolumnInv_aesMixcolumnFwd,
    fun b => ⟨rfl, rfl, aesMixcolumnFwd_setWidth b, aesMixcolumnInv_setWidth b⟩,
    fun c => ⟨aesMixcolumnFwd_eq_xor_rotateLeft c, aesMixcolumnInv_eq_xor_rotateLeft c⟩, by decide⟩

/-! ### Rows (R47) -/

theorem byteAt_aesShiftrowsFwd (s : BitVec 128) {r c : Nat} (hr : r < 4) (hc : c < 4) :
    byteAt (aesShiftrowsFwd s) (r + 4 * c) = byteAt s (r + 4 * ((c + r) % 4)) := by
  rw [aesShiftrowsFwd, byteAt_packBytes 128 16 _ _ (by omega) (by decide)]
  congr 1; omega

theorem byteAt_aesShiftrowsInv (s : BitVec 128) {r c : Nat} (hr : r < 4) (hc : c < 4) :
    byteAt (aesShiftrowsInv s) (r + 4 * c) = byteAt s (r + 4 * ((c + 4 - r) % 4)) := by
  rw [aesShiftrowsInv, byteAt_packBytes 128 16 _ _ (by omega) (by decide)]
  congr 1; omega

/-- States with the same bytes, by row and column. -/
theorem eq_of_byteAt_row_col {s t : BitVec 128}
    (h : ∀ r < 4, ∀ c < 4, byteAt s (r + 4 * c) = byteAt t (r + 4 * c)) : s = t := by
  refine eq_of_byteAt 16 s t (by decide) fun k hk => ?_
  rw [← Nat.mod_add_div k 4]
  exact h (k % 4) (Nat.mod_lt k (by decide)) (k / 4) (by omega)

theorem aesShiftrowsInv_aesShiftrowsFwd (s : BitVec 128) : aesShiftrowsInv (aesShiftrowsFwd s) = s := by
  refine eq_of_byteAt_row_col fun r hr c hc => ?_
  rw [byteAt_aesShiftrowsInv _ hr hc, byteAt_aesShiftrowsFwd _ hr (Nat.mod_lt _ (by decide))]
  congr 1; omega

theorem aesShiftrowsFwd_aesShiftrowsInv (s : BitVec 128) : aesShiftrowsFwd (aesShiftrowsInv s) = s := by
  refine eq_of_byteAt_row_col fun r hr c hc => ?_
  rw [byteAt_aesShiftrowsFwd _ hr hc, byteAt_aesShiftrowsInv _ hr (Nat.mod_lt _ (by decide))]
  congr 1; omega

/-- Settles O36: where each byte comes from, at row 0 too, and the two moves of a byte one after the other. -/
theorem shiftRowsAndItsInverse : Obligations.ShiftRowsAndItsInverse := by
  intro s
  refine ⟨fun r hr c hc => ⟨byteAt_aesShiftrowsFwd s hr hc, ?_⟩, fun c hc => ⟨?_, ?_⟩,
    aesShiftrowsInv_aesShiftrowsFwd s, aesShiftrowsFwd_aesShiftrowsInv s⟩
  · rw [byteAt_aesShiftrowsInv s hr (Nat.mod_lt _ (by decide))]
    congr 1; omega
  · simpa [Nat.mod_eq_of_lt hc] using byteAt_aesShiftrowsFwd s (r := 0) (by decide) hc
  · simpa [Nat.mod_eq_of_lt hc] using byteAt_aesShiftrowsInv s (r := 0) (by decide) hc

end Sys2Proof.Machine
end

section
/-!
PROOFS for the composition of 42_aes32.md and 43_aes64.md: four sliced calls sum the contributions of four bytes,
ShiftRows picks those bytes from four columns, and the two meet in one column of the 64-bit form.
-/

namespace Sys2Proof.Machine

/-! ### Four sliced calls -/

/-- The calls with bs 0 to 3 on one accumulator, the source of slot r being `source r`. -/
def fourCalls (call : Word → Word → BitVec 2 → Word) (k : Word) (source : Nat → Word) : Word :=
  call (call (call (call k (source 0) 0) (source 1) 1) (source 2) 2) (source 3) 3

/-- The column whose byte r is byte r of `source r`. -/
def pickColumn (source : Nat → Word) : Word := packBytes 32 4 fun r => byteAt (source r) r

theorem byteAt_pickColumn (source : Nat → Word) {r : Nat} (hr : r < 4) :
    byteAt (pickColumn source) r = byteAt (source r) r := byteAt_packBytes 32 4 _ r hr (by decide)

/-- The column function that sums the contributions of the column's bytes, each rotated into place. -/
def SumsContributions (column : Word → Word) (contribution : Byte → Word) : Prop :=
  ∀ c, column c = contribution (byteAt c 0) ^^^ (contribution (byteAt c 1)).rotateLeft 8 ^^^
    (contribution (byteAt c 2)).rotateLeft 16 ^^^ (contribution (byteAt c 3)).rotateLeft 24

theorem fourCalls_slotted {column : Word → Word} {contribution : Byte → Word}
    (hsum : SumsContributions column contribution) (table : Byte → Byte) (k : Word) (source : Nat → Word) :
    fourCalls (slotted fun b => contribution (table b)) k source =
      k ^^^ column (subBytes table 4 (pickColumn source)) := by
  have hbyte {r : Nat} (hr : r < 4) : byteAt (subBytes table 4 (pickColumn source)) r =
      table (byteAt (source r) r) := by
    rw [byteAt_subBytes table _ (by decide) hr, byteAt_pickColumn source hr]
  rw [hsum, hbyte (by decide), hbyte (by decide), hbyte (by decide), hbyte (by decide)]
  have hstay (v : Word) : v.rotateLeft 0 = v := by
    rw [← rol_eq_rotateLeft, rol, ror_eq_self_of_dvd v (by decide)]
  simp [fourCalls, slotted, rol_eq_rotateLeft, hstay, BitVec.xor_assoc]

/-! ### The columns the 64-bit forms read -/

theorem setWidth_onColumns (f : Word → Word) (v : Dword) : (onColumns f v).setWidth 32 = f (lowWord v) :=
  BitVec.setWidth_append_eq_right

theorem extractLsb'_onColumns (f : Word → Word) (v : Dword) :
    (onColumns f v).extractLsb' 32 32 = f (highWord v) := BitVec.extractLsb'_append_eq_left

/-- Four columns by number. -/
def columnsOf (c0 c1 c2 c3 : Word) (c : Nat) : Word := [c0, c1, c2, c3].getD c 0

/-- The state of four columns, byte by byte (20_memory.md R21). -/
theorem byteAt_aesState (cols : Nat → Word) {r c : Nat} (hr : r < 4) (hc : c < 4) :
    byteAt (aesState (cols 1 ++ cols 0) (cols 3 ++ cols 2)) (r + 4 * c) = byteAt (cols c) r := by
  have hlow (x y : Dword) {k : Nat} (hk : k < 8) : byteAt (x ++ y) k = byteAt y k := byteAt_append_low x y (by omega)
  interval_cases c
  · exact (hlow _ _ (by omega)).trans (byteAt_append_low _ _ (by omega))
  · rw [Nat.add_comm r]
    exact (hlow _ _ (by omega)).trans (byteAt_append_high (k := 4) _ _ rfl r)
  · rw [Nat.add_comm r]
    exact (byteAt_append_high (k := 8) _ _ rfl r).trans (byteAt_append_low _ _ (by omega))
  · rw [Nat.add_comm r, show 4 * 3 + r = 8 + (4 + r) by omega]
    exact (byteAt_append_high (k := 8) _ _ rfl (4 + r)).trans (byteAt_append_high (k := 4) _ _ rfl r)

/-- The low half of a state, column by column. -/
theorem lowWord_eq_pickColumn {s : BitVec 128} {source : Nat → Word}
    (h : ∀ r < 4, byteAt s (r + 4 * 0) = byteAt (source r) r) :
    lowWord (s.extractLsb' 0 64) = pickColumn source := by
  refine eq_of_byteAt 4 _ _ (by decide) fun r hr => ?_
  rw [byteAt_pickColumn source hr, byteAt_lowWord _ hr, ← h r hr]
  exact (byteAt_extractLsb' s 0 64 (by omega)).trans (by simp)

theorem highWord_eq_pickColumn {s : BitVec 128} {source : Nat → Word}
    (h : ∀ r < 4, byteAt s (r + 4 * 1) = byteAt (source r) r) :
    highWord (s.extractLsb' 0 64) = pickColumn source := by
  refine eq_of_byteAt 4 _ _ (by decide) fun r hr => ?_
  rw [byteAt_pickColumn source hr, byteAt_highWord _ hr, ← h r hr]
  exact (byteAt_extractLsb' s 0 64 (by omega)).trans (by rw [Nat.zero_add, Nat.add_comm])

/-- Column c of ShiftRows takes its byte in row r from column c + r. -/
def shiftedSource (cols : Nat → Word) (c r : Nat) : Word := cols ((c + r) % 4)

/-- Column c of InvShiftRows takes its byte in row r from column c - r. -/
def unshiftedSource (cols : Nat → Word) (c r : Nat) : Word := cols ((c + 4 - r) % 4)

theorem byteAt_aesShiftrowsFwd_aesState (cols : Nat → Word) {r c : Nat} (hr : r < 4) (hc : c < 4) :
    byteAt (aesShiftrowsFwd (aesState (cols 1 ++ cols 0) (cols 3 ++ cols 2))) (r + 4 * c) =
      byteAt (shiftedSource cols c r) r := by
  rw [byteAt_aesShiftrowsFwd _ hr hc, byteAt_aesState cols hr (Nat.mod_lt _ (by decide)), shiftedSource]

theorem byteAt_aesShiftrowsInv_aesState (cols : Nat → Word) {r c : Nat} (hr : r < 4) (hc : c < 4) :
    byteAt (aesShiftrowsInv (aesState (cols 1 ++ cols 0) (cols 3 ++ cols 2))) (r + 4 * c) =
      byteAt (unshiftedSource cols c r) r := by
  rw [byteAt_aesShiftrowsInv _ hr hc, byteAt_aesState cols hr (Nat.mod_lt _ (by decide)), unshiftedSource]

/-! ### One column of a round

`column` is the last step of the round on one column: nothing, MixColumns or InvMixColumns. -/

/-- The two columns of the half that a 64-bit form computes from a permuted state. -/
theorem fourCalls_eq_halfColumns {column : Word → Word} {contribution : Byte → Word}
    (hsum : SumsContributions column contribution) (table : Byte → Byte) (k : Word) {s : BitVec 128}
    {source : Nat → Nat → Word} (hs : ∀ c < 2, ∀ r < 4, byteAt s (r + 4 * c) = byteAt (source c r) r) :
    fourCalls (slotted fun b => contribution (table b)) k (source 0) =
      k ^^^ (onColumns (fun w => column (subBytes table 4 w)) (s.extractLsb' 0 64)).setWidth 32 ∧
    fourCalls (slotted fun b => contribution (table b)) k (source 1) =
      k ^^^ (onColumns (fun w => column (subBytes table 4 w)) (s.extractLsb' 0 64)).extractLsb' 32 32 := by
  rw [setWidth_onColumns, extractLsb'_onColumns, lowWord_eq_pickColumn (hs 0 (by decide)),
    highWord_eq_pickColumn (hs 1 (by decide)), fourCalls_slotted hsum, fourCalls_slotted hsum]
  exact ⟨rfl, rfl⟩

theorem onColumns_onColumns (g f : Word → Word) (v : Dword) :
    onColumns g (onColumns f v) = onColumns (fun w => g (f w)) v := by
  rw [onColumns, show lowWord (onColumns f v) = _ from setWidth_onColumns f v,
    show highWord (onColumns f v) = _ from extractLsb'_onColumns f v, onColumns]

theorem sumsContributions_id : SumsContributions id (fun b => b.setWidth 32) := eq_xor_rotateLeft_bytes

/-- Settles O50: for each kind of round, the state's bytes are those of the columns the calls read. -/
theorem slicedAesCallsComputeTheColumnsOfTheRound : Obligations.SlicedAesCallsComputeTheColumnsOfTheRound := by
  intro k c0 c1 c2 c3 lo hi chain
  have hfwd : ∀ c < 2, ∀ r < 4, byteAt (aesShiftrowsFwd (aesState lo hi)) (r + 4 * c) =
      byteAt (shiftedSource (columnsOf c0 c1 c2 c3) c r) r :=
    fun _ hc _ hr => byteAt_aesShiftrowsFwd_aesState (columnsOf c0 c1 c2 c3) hr (by omega)
  have hinv : ∀ c < 2, ∀ r < 4, byteAt (aesShiftrowsInv (aesState lo hi)) (r + 4 * c) =
      byteAt (unshiftedSource (columnsOf c0 c1 c2 c3) c r) r :=
    fun _ hc _ hr => byteAt_aesShiftrowsInv_aesState (columnsOf c0 c1 c2 c3) hr (by omega)
  obtain ⟨es0, es1⟩ := fourCalls_eq_halfColumns sumsContributions_id aesSbox k hfwd
  obtain ⟨esm0, esm1⟩ := fourCalls_eq_halfColumns aesMixcolumnFwd_eq_xor_rotateLeft aesSbox k hfwd
  obtain ⟨ds0, ds1⟩ := fourCalls_eq_halfColumns sumsContributions_id aesInvSbox k hinv
  obtain ⟨dsm0, dsm1⟩ := fourCalls_eq_halfColumns aesMixcolumnInv_eq_xor_rotateLeft aesInvSbox k hinv
  rw [aes64esmResult, aes64dsmResult, onColumns_onColumns, onColumns_onColumns]
  exact ⟨es0, es1, esm0, esm1, ds0, ds1, dsm0, dsm1⟩

end Sys2Proof.Machine
end

section
/-!
PROOFS for 41_clmul.md, R49 and R50: the carry-less product of any width as a commutative map that is linear in
each operand, with its squares and its top bit, and the two instructions that write its halves.
-/

namespace Sys2Proof.Machine

/-! ### The product at every width -/

/-- A choice between a value and 0 is linear in the value. -/
theorem ite_xor_value {w : Nat} (p : Bool) (t u : BitVec w) :
    (if p = true then t ^^^ u else 0#w) = (if p = true then t else 0#w) ^^^ (if p = true then u else 0#w) := by
  cases p <;> simp

theorem clmulSum_xor_left {w : Nat} (a c b : BitVec w) (is : List Nat) :
    clmulSum (a ^^^ c) b is = clmulSum a b is ^^^ clmulSum c b is := by
  induction is with
  | nil => exact BitVec.xor_self.symm
  | cons i is ih =>
    simp only [clmulSum, ih, BitVec.setWidth_xor, BitVec.shiftLeft_xor_distrib, BitVec.ofNat_eq_ofNat, ite_xor_value]
    ac_rfl

theorem clmulFull_xor_left {w : Nat} (b : BitVec w) : XorHom (clmulFull · b) := fun a c => clmulSum_xor_left a c b _

theorem clmulFull_zero_right {w : Nat} (a : BitVec w) : clmulFull a 0#w = 0#(2 * w) := (clmulFull_xor_right a).map_zero

/-- The product of two powers of x adds their degrees. -/
theorem clmulFull_twoPow_twoPow {w i j : Nat} (hi : i < w) (hj : j < w) :
    clmulFull (BitVec.twoPow w i) (BitVec.twoPow w j) = BitVec.twoPow (2 * w) (i + j) := by
  have hwiden : (BitVec.twoPow w i).setWidth (2 * w) = BitVec.twoPow (2 * w) i := by
    ext k hk
    simp [BitVec.getElem_twoPow, BitVec.getLsbD_twoPow, hi, eq_comm]
  rw [clmulFull_twoPow _ hj, hwiden, BitVec.twoPow_eq, BitVec.twoPow_eq, ← BitVec.shiftLeft_add]

/-- Both orders of the factors are linear in each, so single bits decide. -/
theorem clmulFull_comm {w : Nat} (a b : BitVec w) : clmulFull a b = clmulFull b a := by
  refine (clmulFull_xor_right a).eq_of_twoPow (clmulFull_xor_left a) (fun j hj => ?_) b
  refine (clmulFull_xor_left _).eq_of_twoPow (clmulFull_xor_right _) (fun i hi => ?_) a
  rw [clmulFull_twoPow_twoPow hi hj, clmulFull_twoPow_twoPow hj hi, Nat.add_comm]

/-- Squaring is linear: the two mixed products cancel. -/
theorem clmulFull_self_xor {w : Nat} (a b : BitVec w) :
    clmulFull (a ^^^ b) (a ^^^ b) = clmulFull a a ^^^ clmulFull b b := by
  calc clmulFull (a ^^^ b) (a ^^^ b)
      = clmulFull a (a ^^^ b) ^^^ clmulFull b (a ^^^ b) := clmulFull_xor_left _ a b
    _ = (clmulFull a a ^^^ clmulFull a b) ^^^ (clmulFull a b ^^^ clmulFull b b) := by
      rw [clmulFull_xor_right a, clmulFull_xor_right b, clmulFull_comm b a]
    _ = clmulFull a a ^^^ clmulFull b b := by
      rw [BitVec.xor_assoc, ← BitVec.xor_assoc (clmulFull a b), BitVec.xor_self, BitVec.zero_xor]

/-- Squaring spreads the bits to the even positions. -/
theorem getLsbD_clmulFull_self {w : Nat} (a : BitVec w) (k : Nat) :
    (clmulFull a a).getLsbD k = (decide (k % 2 = 0) && a.getLsbD (k / 2)) := by
  induction a using xor_induction with
  | zero => simp [clmulFull_zero_right]
  | bit i hi =>
    have hdouble : i + i = k ↔ k % 2 = 0 ∧ i = k / 2 := by omega
    simp [clmulFull_twoPow_twoPow hi hi, BitVec.getLsbD_twoPow, hi, hdouble, show i + i < 2 * w by omega]
  | xor a b ha hb =>
    rw [clmulFull_self_xor, BitVec.getLsbD_xor, ha, hb, BitVec.getLsbD_xor, Bool.and_xor_distrib_left]

/-- The degree of the product is at most 2w - 2. -/
theorem getLsbD_clmulFull_top {w : Nat} (a b : BitVec w) : (clmulFull a b).getLsbD (2 * w - 1) = false := by
  induction b using xor_induction with
  | zero => simp [clmulFull_zero_right]
  | bit i hi =>
    have hout : a.getLsbD (2 * w - 1 - i) = false := BitVec.getLsbD_of_ge _ _ (by omega)
    simp [clmulFull_twoPow a hi, BitVec.getLsbD_shiftLeft, hout]
  | xor b c hb hc => rw [clmulFull_xor_right, BitVec.getLsbD_xor, hb, hc, Bool.xor_false]

/-! ### The results at either XLEN (R49, R50) -/

theorem xlenBits_pos (x : Xlen) : 0 < xlenBits x := by cases x <;> decide

theorem xlenBits_le (x : Xlen) : xlenBits x ≤ 64 := by cases x <;> decide

theorem truncX_eq_setWidth (x : Xlen) (v : XWord) : truncX x v = (v.setWidth (xlenBits x)).setWidth 64 := by
  cases x
  · rfl
  · exact ((BitVec.setWidth_eq _).trans (BitVec.setWidth_eq _)).symm

/-- An XLEN-bit value in its container is unchanged by the cut. -/
theorem truncX_setWidth_xlenBits (x : Xlen) (v : BitVec (xlenBits x)) : truncX x (v.setWidth 64) = v.setWidth 64 := by
  rw [truncX_eq_setWidth, BitVec.setWidth_setWidth_of_le _ (xlenBits_le x), BitVec.setWidth_eq]

/-- The full product of the operands at the width of the XLEN. -/
def xlenProduct (x : Xlen) (a b : XWord) : BitVec (2 * xlenBits x) :=
  clmulFull (a.setWidth (xlenBits x)) (b.setWidth (xlenBits x))

theorem clmulResult_eq (x : Xlen) (a b : XWord) :
    clmulResult x a b = ((xlenProduct x a b).extractLsb' 0 (xlenBits x)).setWidth 64 := by
  cases x
  · rfl
  · simp [clmulResult, xlenProduct, xlenBits]

theorem clmulhResult_eq (x : Xlen) (a b : XWord) :
    clmulhResult x a b = ((xlenProduct x a b).extractLsb' (xlenBits x) (xlenBits x)).setWidth 64 := by
  cases x
  · rfl
  · simp [clmulhResult, xlenProduct, xlenBits]

theorem truncX_clmulResult (x : Xlen) (a b : XWord) : truncX x (clmulResult x a b) = clmulResult x a b := by
  rw [clmulResult_eq, truncX_setWidth_xlenBits]

theorem truncX_clmulhResult (x : Xlen) (a b : XWord) : truncX x (clmulhResult x a b) = clmulhResult x a b := by
  rw [clmulhResult_eq, truncX_setWidth_xlenBits]

theorem fits_clmulResult (x : Xlen) (a b : XWord) : FitsXlen x (clmulResult x a b) :=
  truncX_clmulResult x a b ▸ fits_truncX _ _

theorem fits_clmulhResult (x : Xlen) (a b : XWord) : FitsXlen x (clmulhResult x a b) :=
  truncX_clmulhResult x a b ▸ fits_truncX _ _

theorem xlenProduct_comm (x : Xlen) (a b : XWord) : xlenProduct x a b = xlenProduct x b a := clmulFull_comm _ _

theorem clmulResult_comm (x : Xlen) (a b : XWord) : clmulResult x a b = clmulResult x b a := by
  rw [clmulResult_eq, xlenProduct_comm, ← clmulResult_eq]

theorem xlenProduct_zero (x : Xlen) (a : XWord) : xlenProduct x a 0#64 = 0#_ := by
  rw [xlenProduct, BitVec.setWidth_zero, clmulFull_zero_right]

theorem clmulResult_zero (x : Xlen) (a : XWord) : clmulResult x a 0#64 = 0#64 := by
  rw [clmulResult_eq, xlenProduct_zero, BitVec.extractLsb'_zero, BitVec.setWidth_zero]

theorem clmulhResult_zero (x : Xlen) (a : XWord) : clmulhResult x a 0#64 = 0#64 := by
  rw [clmulhResult_eq, xlenProduct_zero, BitVec.extractLsb'_zero, BitVec.setWidth_zero]

theorem xlenProduct_one_shiftLeft (x : Xlen) (a : XWord) {k : Nat} (hk : k < xlenBits x) :
    xlenProduct x a (1#64 <<< k) = (a.setWidth (xlenBits x)).setWidth (2 * xlenBits x) <<< k := by
  have hbit : (1#64 <<< k).setWidth (xlenBits x) = BitVec.twoPow (xlenBits x) k := by
    rw [BitVec.setWidth_shiftLeft_of_le (xlenBits_le x), BitVec.setWidth_ofNat_of_le (xlenBits_le x), BitVec.twoPow_eq]
  rw [xlenProduct, hbit, clmulFull_twoPow _ hk]

theorem clmulResult_one_shiftLeft (x : Xlen) (a : XWord) {k : Nat} (hk : k < xlenBits x) :
    clmulResult x a (1#64 <<< k) = truncX x (a <<< k) := by
  have hwide : xlenBits x ≤ 2 * xlenBits x := by omega
  rw [clmulResult_eq, xlenProduct_one_shiftLeft x a hk, ← BitVec.setWidth_eq_extractLsb' hwide,
    BitVec.setWidth_shiftLeft_of_le hwide, BitVec.setWidth_setWidth_of_le _ hwide, BitVec.setWidth_eq,
    truncX_eq_setWidth, BitVec.setWidth_shiftLeft_of_le (xlenBits_le x)]

theorem clmulResult_one (x : Xlen) (a : XWord) : clmulResult x a 1#64 = truncX x a := by
  simpa only [BitVec.shiftLeft_zero] using clmulResult_one_shiftLeft x a (xlenBits_pos x)

theorem clmulhResult_one (x : Xlen) (a : XWord) : clmulhResult x a 1#64 = 0#64 := by
  have hprod := xlenProduct_one_shiftLeft x a (xlenBits_pos x)
  rw [BitVec.shiftLeft_zero, BitVec.shiftLeft_zero] at hprod
  have hhigh : (xlenProduct x a 1#64).extractLsb' (xlenBits x) (xlenBits x) = 0#_ := by
    ext k hk
    simp [hprod]
  rw [clmulhResult_eq, hhigh, BitVec.setWidth_zero]

theorem getLsbD_clmulResult_self (x : Xlen) (a : XWord) {k : Nat} (hk : k < xlenBits x) :
    (clmulResult x a a).getLsbD k = (decide (k % 2 = 0) && a.getLsbD (k / 2)) := by
  have hk64 : k < 64 := hk.trans_le (xlenBits_le x)
  have hhalf : k / 2 < xlenBits x := by omega
  simp [clmulResult_eq, xlenProduct, getLsbD_clmulFull_self, hk, hk64, hhalf]

theorem getLsbD_clmulhResult_top (x : Xlen) (a b : XWord) :
    (clmulhResult x a b).getLsbD (xlenBits x - 1) = false := by
  have htop : xlenBits x + (xlenBits x - 1) = 2 * xlenBits x - 1 := by have := xlenBits_pos x; omega
  have hzero : (xlenProduct x a b).getLsbD (2 * xlenBits x - 1) = false := getLsbD_clmulFull_top _ _
  simp [clmulhResult_eq, htop, hzero]

/-- A value of even width is its high half and its low half. -/
theorem extractLsb'_high_append_low {w : Nat} (v : BitVec (w + w)) : v.extractLsb' w w ++ v.extractLsb' 0 w = v := by
  rw [BitVec.extractLsb'_append_extractLsb'_eq_extractLsb' (Nat.zero_add w).symm, BitVec.extractLsb'_eq_self]

theorem clmulhResult_append_clmulResult_rv64 (a b : XWord) :
    clmulhResult .rv64 a b ++ clmulResult .rv64 a b = clmulFull a b :=
  extractLsb'_high_append_low (w := 64) (clmulFull a b)

theorem clmulhResult_append_clmulResult_rv32 (a b : XWord) :
    (clmulhResult .rv32 a b).setWidth 32 ++ (clmulResult .rv32 a b).setWidth 32 =
    clmulFull (a.setWidth 32) (b.setWidth 32) := by
  rw [clmulResult, clmulhResult, BitVec.setWidth_setWidth_of_le _ (by decide),
    BitVec.setWidth_setWidth_of_le _ (by decide), BitVec.setWidth_eq, BitVec.setWidth_eq]
  exact extractLsb'_high_append_low (w := 32) _

/-! ### The instructions -/

theorem completesWith_clmul (s : State) (rd rs1 rs2 : Reg) :
    CompletesWith (.clmul rd rs1 rs2) s rd (clmulResult s.xlen (s.readReg rs1) (s.readReg rs2)) :=
  completesWith_of_issue rfl rfl (truncX_clmulResult ..)

theorem completesWith_clmulh (s : State) (rd rs1 rs2 : Reg) :
    CompletesWith (.clmulh rd rs1 rs2) s rd (clmulhResult s.xlen (s.readReg rs1) (s.readReg rs2)) :=
  completesWith_of_issue rfl rfl (truncX_clmulhResult ..)

/-- Settles O38: the frames by issuing, the halves and corner cases by the laws of the product, and the examples
of R49 and R50 by evaluation. -/
theorem carrylessMultiplyWritesTheHalvesOfTheProduct : Obligations.CarrylessMultiplyWritesTheHalvesOfTheProduct := by
  refine ⟨fun s rd rs1 rs2 => ?frame, fun a b => ?halves, fun x a b => ?corners, by decide⟩
  case frame =>
    exact ⟨completesWith_clmul s rd rs1 rs2, completesWith_clmulh s rd rs1 rs2,
      Laws.hasFormatR_of_encode rfl rfl, Laws.hasFormatR_of_encode rfl rfl⟩
  case halves =>
    exact ⟨clmulhResult_append_clmulResult_rv64 a b, clmulhResult_append_clmulResult_rv32 a b,
      fits_clmulResult .rv32 a b, fits_clmulhResult .rv32 a b⟩
  case corners =>
    exact ⟨clmulResult_zero x a, clmulhResult_zero x a, clmulResult_one x a, clmulhResult_one x a,
      clmulResult_comm x a b, fun _ => clmulResult_one_shiftLeft x a, fun _ => getLsbD_clmulResult_self x a,
      getLsbD_clmulhResult_top x a b⟩

end Sys2Proof.Machine
end

section
/-!
PROOFS for 42_aes32.md, R51 to R54: what a sliced instruction writes and where it exists, and the slot arithmetic
behind its corner cases.
-/

namespace Sys2Proof.Machine

/-! ### One slot of the accumulator -/

/-- A byte rotated into slot n fills that slot alone. -/
theorem byteAt_setWidth_rotateLeft (b : Byte) {n k : Nat} (hn : n < 4) (hk : k < 4) :
    byteAt ((b.setWidth 32).rotateLeft (8 * n)) k = if k = n then b else 0#8 := by
  have hslot : (k + 4 - n) % 4 = 0 ↔ k = n := by omega
  rw [byteAt_rotateLeft _ hn hk, byteAt_byte_setWidth]
  simp only [hslot]

/-- With a one-byte contribution, the accumulator's bytes stay but for the one in slot bs. -/
theorem byteAt_slotted_setWidth (table : Byte → Byte) (acc src : Word) (bs : BitVec 2) {k : Nat} (hk : k < 4) :
    byteAt (slotted (fun si => (table si).setWidth 32) acc src bs) k =
      byteAt acc k ^^^ if k = bs.toNat then table (byteAt src bs.toNat) else 0#8 := by
  rw [slotted, rol_eq_rotateLeft, byteAt_xor, byteAt_setWidth_rotateLeft _ bs.isLt hk]

theorem byteAt_slotted_setWidth_of_ne (table : Byte → Byte) (acc src : Word) {bs : BitVec 2} {k : Nat} (hk : k < 4)
    (hne : k ≠ bs.toNat) : byteAt (slotted (fun si => (table si).setWidth 32) acc src bs) k = byteAt acc k := by
  rw [byteAt_slotted_setWidth table acc src bs hk, if_neg hne, BitVec.xor_zero]

theorem byteAt_zero {w : Nat} (i : Nat) : byteAt 0#w i = 0#8 := BitVec.extractLsb'_zero

/-- From accumulator 0 the result is the substituted byte, in its slot. -/
theorem byteAt_slotted_setWidth_zero (table : Byte → Byte) (src : Word) (bs : BitVec 2) {k : Nat} (hk : k < 4) :
    byteAt (slotted (fun si => (table si).setWidth 32) 0#32 src bs) k =
      if k = bs.toNat then table (byteAt src k) else 0#8 := by
  rw [byteAt_slotted_setWidth table 0#32 src bs hk, byteAt_zero, BitVec.zero_xor]
  split
  case isTrue h => rw [h]
  case isFalse => rfl

/-- From accumulator 0 and source 0, slot bs holds what the table has at 0. -/
theorem byteAt_slotted_setWidth_zero_zero (table : Byte → Byte) (bs : BitVec 2) :
    byteAt (slotted (fun si => (table si).setWidth 32) 0#32 0#32 bs) bs.toNat = table 0#8 := by
  rw [byteAt_slotted_setWidth_zero table _ bs bs.isLt, if_pos rfl, byteAt_zero]

/-- A contribution of 0 leaves the accumulator as it is. -/
theorem slotted_eq_self {contribution : Byte → Word} (acc : Word) {src : Word} {bs : BitVec 2}
    (h : contribution (byteAt src bs.toNat) = 0#32) : slotted contribution acc src bs = acc := by
  rw [slotted, h, rol, ror, BitVec.zero_ushiftRight, BitVec.zero_shiftLeft, BitVec.or_zero, BitVec.xor_zero]

/-! ### The instructions -/

/-- How a sliced instruction completes at XLEN 32: it issues its slotted contribution, and it exists there. -/
theorem completesWith_slotted {i : Instr} {s : State} {rd rs1 rs2 : Reg} {bs : BitVec 2} (contribution : Byte → Word)
    (hx : s.xlen = .rv32) (hw : i.wellFormed .rv32 = true)
    (h : exec i s = s.issue i rd ((slotted contribution (s.readWord rs1) (s.readWord rs2) bs).setWidth 64)) :
    CompletesWith i s rd (((s.readReg rs1).setWidth 32 ^^^
      (contribution (byteAt (s.readReg rs2) bs.toNat)).rotateLeft (8 * bs.toNat)).setWidth 64) := by
  have hbyte : byteAt (s.readWord rs2) bs.toNat = byteAt (s.readReg rs2) bs.toNat :=
    byteAt_lowWord (s.readReg rs2) bs.isLt
  rw [slotted, hbyte, rol_eq_rotateLeft] at h
  exact completesWith_of_issue h (hx ▸ hw) (truncX_setWidth ..)

theorem raisesIllegal_at_rv64 {i : Instr} {s : State} (hx : s.xlen = .rv64) (hw : i.wellFormed .rv64 = false) :
    RaisesIllegal i s := raisesIllegal_of_not_wellFormed (hx ▸ hw)

/-- Settles O40: the frames by issuing a slotted contribution, the exception by the XLEN, the corner cases by the
slot laws, and the examples of R51 to R54 by evaluation. -/
theorem slicedAesSubstitutesOneByteAndAccumulates : Obligations.SlicedAesSubstitutesOneByteAndAccumulates := by
  refine ⟨fun s rd rs1 rs2 bs => ⟨fun hx => ?frame, fun hx => ?illegal, ?formats⟩, fun acc src bs => ?corners,
    by decide⟩
  case frame =>
    exact ⟨completesWith_slotted (fun si => (aesSbox si).setWidth 32) hx rfl rfl,
      completesWith_slotted (fun si => aesMixcolumnByteFwd (aesSbox si)) hx rfl rfl,
      completesWith_slotted (fun si => (aesInvSbox si).setWidth 32) hx rfl rfl,
      completesWith_slotted (fun si => aesMixcolumnByteInv (aesInvSbox si)) hx rfl rfl⟩
  case illegal =>
    exact ⟨raisesIllegal_at_rv64 hx rfl, raisesIllegal_at_rv64 hx rfl, raisesIllegal_at_rv64 hx rfl,
      raisesIllegal_at_rv64 hx rfl⟩
  case formats =>
    exact ⟨Laws.hasFormatRbs_of_encode rfl rfl, Laws.hasFormatRbs_of_encode rfl rfl,
      Laws.hasFormatRbs_of_encode rfl rfl, Laws.hasFormatRbs_of_encode rfl rfl⟩
  case corners =>
    have hesmi : aesMixcolumnByteFwd (aesSbox 0x52) = 0#32 := by decide
    have hdsi : (aesInvSbox 0x63).setWidth 32 = 0#32 := by decide
    have hdsmi : aesMixcolumnByteInv (aesInvSbox 0x63) = 0#32 := by decide
    exact ⟨fun k hk hne => ⟨byteAt_slotted_setWidth_of_ne aesSbox acc src hk hne,
        byteAt_slotted_setWidth_of_ne aesInvSbox acc src hk hne⟩,
      fun k hk => byteAt_slotted_setWidth_zero aesSbox src bs hk,
      byteAt_slotted_setWidth_zero_zero aesSbox bs, byteAt_slotted_setWidth_zero_zero aesInvSbox bs,
      fun h => slotted_eq_self acc (h ▸ hesmi),
      fun h => ⟨slotted_eq_self acc (h ▸ hdsi), slotted_eq_self acc (h ▸ hdsmi)⟩⟩

end Sys2Proof.Machine
end

section
/-!
PROOFS for the compositions of 43_aes64.md: swapping the operands rotates the state by two columns, which ShiftRows
and InvShiftRows commute with, so two calls make the whole round; and rounds undo each other byte by byte.
-/

namespace Sys2Proof.Machine

/-! ### Half a round

Both last rounds move the bytes of the state and substitute each of them. -/

/-- The state whose byte k is byte `source k` of s. -/
def moveBytes (source : Nat → Nat) (s : BitVec 128) : BitVec 128 := packBytes 128 16 fun k => byteAt s (source k)

/-- The low half of a state with its bytes moved and substituted. -/
def halfRound (table : Byte → Byte) (source : Nat → Nat) (a b : Dword) : Dword :=
  subBytes table 8 ((moveBytes source (aesState a b)).extractLsb' 0 64)

/-- Where ShiftRows takes byte k from (R47). -/
def shiftRowsSource (k : Nat) : Nat := k % 4 + 4 * ((k / 4 + k % 4) % 4)

/-- Where InvShiftRows takes byte k from (R47). -/
def invShiftRowsSource (k : Nat) : Nat := k % 4 + 4 * ((k / 4 + 4 - k % 4) % 4)

theorem aesShiftrowsFwd_eq_moveBytes (s : BitVec 128) : aesShiftrowsFwd s = moveBytes shiftRowsSource s := rfl

theorem aesShiftrowsInv_eq_moveBytes (s : BitVec 128) : aesShiftrowsInv s = moveBytes invShiftRowsSource s := rfl

theorem aes64esResult_eq_halfRound (a b : Dword) : aes64esResult a b = halfRound aesSbox shiftRowsSource a b :=
  (subBytes_eq_onColumns aesSbox _).symm

theorem aes64dsResult_eq_halfRound (a b : Dword) : aes64dsResult a b = halfRound aesInvSbox invShiftRowsSource a b :=
  (subBytes_eq_onColumns aesInvSbox _).symm

theorem byteAt_moveBytes (source : Nat → Nat) (s : BitVec 128) {k : Nat} (hk : k < 16) :
    byteAt (moveBytes source s) k = byteAt s (source k) := byteAt_packBytes 128 16 _ k hk (by decide)

theorem byteAt_halfRound (table : Byte → Byte) (source : Nat → Nat) (a b : Dword) {k : Nat} (hk : k < 8) :
    byteAt (halfRound table source a b) k = table (byteAt (aesState a b) (source k)) := by
  rw [halfRound, byteAt_subBytes table _ (by decide) hk, ← byteAt_moveBytes source _ (by omega)]
  simpa using congrArg table (byteAt_extractLsb' (moveBytes source (aesState a b)) 0 64 (i := k) (by omega))

/-! ### Swapping the operands -/

theorem byteAt_aesState_low (a b : Dword) {k : Nat} (hk : k < 8) : byteAt (aesState a b) k = byteAt a k :=
  byteAt_append_low b a (by omega)

theorem byteAt_aesState_high (a b : Dword) (k : Nat) : byteAt (aesState a b) (8 + k) = byteAt b k :=
  byteAt_append_high (k := 8) b a rfl k

/-- Swapping the operands rotates the state by two columns. -/
theorem byteAt_aesState_swap (a b : Dword) {k : Nat} (hk : k < 16) :
    byteAt (aesState b a) k = byteAt (aesState a b) ((8 + k) % 16) := by
  rcases Nat.lt_or_ge k 8 with hlow | hhigh
  · rw [Nat.mod_eq_of_lt (by omega), byteAt_aesState_low b a hlow, byteAt_aesState_high]
  · obtain ⟨j, rfl⟩ := Nat.exists_eq_add_of_le hhigh
    rw [show (8 + (8 + j)) % 16 = j by omega, byteAt_aesState_high, byteAt_aesState_low a b (by omega)]

/-- The moves that stay inside the state and commute with rotating it by two columns. -/
def CommutesWithSwap (source : Nat → Nat) : Prop :=
  ∀ k < 8, source k < 16 ∧ source (8 + k) = (8 + source k) % 16

theorem commutesWithSwap_shiftRowsSource : CommutesWithSwap shiftRowsSource := by
  unfold CommutesWithSwap; decide

theorem commutesWithSwap_invShiftRowsSource : CommutesWithSwap invShiftRowsSource := by
  unfold CommutesWithSwap; decide

/-- Two calls, the second with swapped operands, make the whole round. -/
theorem aesState_halfRound_swap (table : Byte → Byte) {source : Nat → Nat} (hswap : CommutesWithSwap source)
    (lo hi : Dword) : aesState (halfRound table source lo hi) (halfRound table source hi lo) =
      subBytes table 16 (moveBytes source (aesState lo hi)) := by
  refine eq_of_byteAt 16 _ _ (by decide) fun k hk => ?_
  rw [byteAt_subBytes table _ (by decide) hk, byteAt_moveBytes source _ hk]
  rcases Nat.lt_or_ge k 8 with hlow | hhigh
  · rw [byteAt_aesState_low _ _ hlow, byteAt_halfRound _ _ _ _ hlow]
  · obtain ⟨j, rfl⟩ := Nat.exists_eq_add_of_le hhigh
    have hj : j < 8 := by omega
    obtain ⟨hin, hrotated⟩ := hswap j hj
    rw [byteAt_aesState_high, byteAt_halfRound _ _ _ _ hj, byteAt_aesState_swap lo hi hin, hrotated]

/-- Settles O51: two half rounds make a round; a middle round is the last round with its columns mixed. -/
theorem swappedOperandsGiveTheOtherHalfOfTheState : Obligations.SwappedOperandsGiveTheOtherHalfOfTheState := by
  intro lo hi
  refine ⟨?es, ?ds, rfl, rfl⟩
  case es =>
    rw [aes64esResult_eq_halfRound, aes64esResult_eq_halfRound, aesShiftrowsFwd_eq_moveBytes]
    exact aesState_halfRound_swap aesSbox commutesWithSwap_shiftRowsSource lo hi
  case ds =>
    rw [aes64dsResult_eq_halfRound, aes64dsResult_eq_halfRound, aesShiftrowsInv_eq_moveBytes]
    exact aesState_halfRound_swap aesInvSbox commutesWithSwap_invShiftRowsSource lo hi

/-! ### Rounds that undo each other -/

/-- A half round of the two halves of a round gives back the low half, when it moves each byte back and undoes its
substitution. -/
theorem halfRound_halfRound {table table' : Byte → Byte} {source source' : Nat → Nat}
    (hswap : CommutesWithSwap source) (htable : ∀ v, table' (table v) = v)
    (hsource : ∀ k < 8, source' k < 16 ∧ source (source' k) = k) (lo hi : Dword) :
    halfRound table' source' (halfRound table source lo hi) (halfRound table source hi lo) = lo := by
  refine eq_of_byteAt 8 _ _ (by decide) fun k hk => ?_
  obtain ⟨hin, hback⟩ := hsource k hk
  rw [byteAt_halfRound _ _ _ _ hk, aesState_halfRound_swap table hswap, byteAt_subBytes table _ (by decide) hin,
    byteAt_moveBytes source _ hin, htable, hback, byteAt_aesState_low lo hi hk]

theorem aes64dsResult_aes64esResult (lo hi : Dword) :
    aes64dsResult (aes64esResult lo hi) (aes64esResult hi lo) = lo := by
  rw [aes64dsResult_eq_halfRound, aes64esResult_eq_halfRound, aes64esResult_eq_halfRound]
  exact halfRound_halfRound commutesWithSwap_shiftRowsSource (fun v => (aesInverseSboxInvertsTheSbox v).1)
    (by decide) lo hi

theorem aes64esResult_aes64dsResult (lo hi : Dword) :
    aes64esResult (aes64dsResult lo hi) (aes64dsResult hi lo) = lo := by
  rw [aes64esResult_eq_halfRound, aes64dsResult_eq_halfRound, aes64dsResult_eq_halfRound]
  exact halfRound_halfRound commutesWithSwap_invShiftRowsSource (fun v => (aesInverseSboxInvertsTheSbox v).2)
    (by decide) lo hi

theorem highWord_append (c d : Word) : highWord (c ++ d) = c := BitVec.extractLsb'_append_eq_left

theorem lowWord_append (c d : Word) : lowWord (c ++ d) = d := BitVec.setWidth_append_eq_right

theorem onColumns_append (f : Word → Word) (c d : Word) : onColumns f (c ++ d) = f c ++ f d := by
  rw [onColumns, highWord_append, lowWord_append]

/-- InvMixColumns undoes MixColumns on both columns (R46). -/
theorem aes64imResult_onColumns_aesMixcolumnFwd (v : Dword) : aes64imResult (onColumns aesMixcolumnFwd v) = v := by
  rw [aes64imResult, onColumns_onColumns]
  simp only [aesMixcolumnInv_aesMixcolumnFwd]
  exact extractLsb'_high_append_low (w := 32) v

/-- Settles O52: aes64im takes a middle round back to the last round, which aes64ds undoes. -/
theorem aes64DecryptionUndoesEncryption : Obligations.Aes64DecryptionUndoesEncryption := by
  have him (a b : Dword) : aes64imResult (aes64esmResult a b) = aes64esResult a b :=
    aes64imResult_onColumns_aesMixcolumnFwd _
  intro lo hi
  rw [him, him]
  exact ⟨aes64dsResult_aes64esResult lo hi, aes64dsResult_aes64esResult lo hi, aes64esResult_aes64dsResult lo hi⟩

end Sys2Proof.Machine
end

section
/-!
PROOFS for 43_aes64.md, R55 to R61: what a 64-bit AES instruction writes and where it exists, the bytes of a half
round, InvMixColumns as a linear map of two columns, and the words of the key schedule.
-/

namespace Sys2Proof.Machine

/-! ### Completing at XLEN 64, and not existing at XLEN 32 -/

/-- An instruction that exists at XLEN 64 writes the value it issues, in full. -/
theorem completesWith_at_rv64 {i : Instr} {s : State} {rd : Reg} {v u : Dword} (hx : s.xlen = .rv64)
    (hw : i.wellFormed .rv64 = true) (h : exec i s = s.issue i rd v) (hv : v = u) : CompletesWith i s rd u :=
  hv ▸ completesWith_of_issue h (hx ▸ hw) (hx ▸ truncX_rv64 v)

theorem raisesIllegal_at_rv32 {i : Instr} {s : State} (hx : s.xlen = .rv32) (hw : i.wellFormed .rv32 = false) :
    RaisesIllegal i s := raisesIllegal_of_not_wellFormed (hx ▸ hw)

/-! ### The round instructions (R55 to R58) -/

/-- A column function on the low half of a state, the half and its columns cut out as the rules write it. -/
theorem onColumns_lowHalf (f : Word → Word) (s : BitVec 128) : onColumns f (s.extractLsb' 0 64) =
    f ((s.setWidth 64).extractLsb' 32 32) ++ f ((s.setWidth 64).setWidth 32) := by
  rw [← BitVec.setWidth_eq_extractLsb' (by decide)]; rfl

theorem byteAt_aes64esResult (a b : Dword) {k : Nat} (hk : k < 8) : byteAt (aes64esResult a b) k =
    aesSbox (byteAt (b ++ a : BitVec 128) ([0, 5, 10, 15, 4, 9, 14, 3].getD k 0)) := by
  have hsource : ∀ k < 8, shiftRowsSource k = [0, 5, 10, 15, 4, 9, 14, 3].getD k 0 := by decide
  rw [aes64esResult_eq_halfRound, byteAt_halfRound _ _ _ _ hk, hsource k hk, aesState]

theorem byteAt_aes64dsResult (a b : Dword) {k : Nat} (hk : k < 8) : byteAt (aes64dsResult a b) k =
    aesInvSbox (byteAt (b ++ a : BitVec 128) ([0, 13, 10, 7, 4, 1, 14, 11].getD k 0)) := by
  have hsource : ∀ k < 8, invShiftRowsSource k = [0, 13, 10, 7, 4, 1, 14, 11].getD k 0 := by decide
  rw [aes64dsResult_eq_halfRound, byteAt_halfRound _ _ _ _ hk, hsource k hk, aesState]

/-- A circulant matrix whose row sums to 1 fixes the columns of four equal bytes. -/
theorem mixColumn_equal_bytes {k0 k1 k2 k3 : Byte} (hsum : k0 ^^^ k1 ^^^ k2 ^^^ k3 = 1) (b : Byte) :
    mixColumn k0 k1 k2 k3 (b ++ b ++ b ++ b) = b ++ b ++ b ++ b := by
  have hbyte {r : Nat} (hr : r < 4) : byteAt (b ++ b ++ b ++ b : Word) r = b := by
    rw [show (b ++ b ++ b ++ b : Word) = wordOfBytes b b b b from rfl, byteAt_wordOfBytes b b b b hr]
    interval_cases r <;> rfl
  refine eq_of_byteAt 4 _ _ (by decide) fun r hr => ?_
  rw [byteAt_mixColumn _ _ _ _ _ hr, mixRow, hbyte hr, hbyte (Nat.mod_lt _ (by decide)),
    hbyte (Nat.mod_lt _ (by decide)), hbyte (Nat.mod_lt _ (by decide)), ← gfMul_xor_left, ← gfMul_xor_left,
    ← gfMul_xor_left, hsum, gfMul_one_left]

theorem aesMixcolumnFwd_equal_bytes (b : Byte) : aesMixcolumnFwd (b ++ b ++ b ++ b) = b ++ b ++ b ++ b := by
  rw [aesMixcolumnFwd_eq_mixColumn, mixColumn_equal_bytes (by decide)]

theorem aesMixcolumnInv_equal_bytes (b : Byte) : aesMixcolumnInv (b ++ b ++ b ++ b) = b ++ b ++ b ++ b := by
  rw [aesMixcolumnInv_eq_mixColumn, mixColumn_equal_bytes (by decide)]

/-- Settles O41: the frames by issuing a half round, the exception by the XLEN, the bytes by where ShiftRows takes
them from, and the examples of R55 to R58 by evaluation. -/
theorem aes64RoundsWriteOneHalfOfTheNextState : Obligations.Aes64RoundsWriteOneHalfOfTheNextState := by
  refine ⟨fun s rd rs1 rs2 => ?instructions,
    fun a b k hk => ⟨byteAt_aes64esResult a b hk, byteAt_aes64dsResult a b hk⟩, by decide, by decide,
    by decide, by decide, aesMixcolumnFwd_equal_bytes, by decide⟩
  case instructions =>
    intro st f g u v
    have hes : aes64esResult (s.readReg rs1) (s.readReg rs2) = u := onColumns_lowHalf aesSubword _
    have hds : aes64dsResult (s.readReg rs1) (s.readReg rs2) = v := onColumns_lowHalf aesInvSubword _
    refine ⟨fun hx => ?frame, fun hx => ?illegal, ?formats⟩
    case frame =>
      exact ⟨completesWith_at_rv64 hx rfl rfl hes,
        completesWith_at_rv64 hx rfl rfl (congrArg (onColumns aesMixcolumnFwd) hes),
        completesWith_at_rv64 hx rfl rfl hds,
        completesWith_at_rv64 hx rfl rfl (congrArg (onColumns aesMixcolumnInv) hds)⟩
    case illegal =>
      exact ⟨raisesIllegal_at_rv32 hx rfl, raisesIllegal_at_rv32 hx rfl, raisesIllegal_at_rv32 hx rfl,
        raisesIllegal_at_rv32 hx rfl⟩
    case formats =>
      exact ⟨Laws.hasFormatR_of_encode rfl rfl, Laws.hasFormatR_of_encode rfl rfl,
        Laws.hasFormatR_of_encode rfl rfl, Laws.hasFormatR_of_encode rfl rfl⟩

/-! ### InvMixColumns on two columns (R59) -/

theorem onColumns_xor {f : Word → Word} (hf : XorHom f) : XorHom (onColumns f) := by
  intro a b
  rw [onColumns, highWord, lowWord, BitVec.extractLsb'_xor, BitVec.setWidth_xor, hf, hf, ← BitVec.xor_append]
  rfl

theorem aesMixcolumnInv_xor : XorHom aesMixcolumnInv := by
  rw [funext aesMixcolumnInv_eq_mixColumn]
  exact mixColumn_xor _ _ _ _

theorem aes64imResult_xor : XorHom aes64imResult := onColumns_xor aesMixcolumnInv_xor

/-- Settles O42: the frame by issuing, linearity and the fixed columns from the matrix of InvMixColumns, and its
inverse by columns. -/
theorem aes64imInvertsMixColumnsOnTwoColumns : Obligations.Aes64imInvertsMixColumnsOnTwoColumns := by
  refine ⟨fun s rd rs1 => ⟨fun hx => completesWith_at_rv64 hx rfl rfl rfl, fun hx => raisesIllegal_at_rv32 hx rfl,
    Laws.hasFormatIunary_of_encode rfl rfl⟩, aes64imResult_xor, aes64imResult_xor.map_zero,
    aesMixcolumnInv_equal_bytes, fun c d => ?undoes, by decide⟩
  case undoes =>
    rw [← onColumns_append, aes64imResult_onColumns_aesMixcolumnFwd]

/-! ### The key schedule (R60, R61) -/

/-- aes64ks1i is well formed where it exists and its round number is not reserved (R31, R60). -/
theorem wellFormed_aes64ks1i (x : Xlen) (rd rs1 : Reg) (rnum : BitVec 4) :
    (Instr.aes64ks1i rd rs1 rnum).wellFormed x = (x == .rv64 && decide (rnum.toNat ≤ 0xA)) := rfl

/-- The first step reads the high word alone, and writes one word twice. -/
theorem aes64ks1iResult_append (h l : Word) (rnum : BitVec 4) : aes64ks1iResult (h ++ l) rnum =
    (aesSubword (if rnum = 0xA then h else h.rotateRight 8) ^^^ aesRcon rnum) ++
      (aesSubword (if rnum = 0xA then h else h.rotateRight 8) ^^^ aesRcon rnum) := by
  rw [aes64ks1iResult, highWord_append, ror_eq_rotateRight]

/-- The second step reads the high word of its first operand alone. -/
theorem aes64ks2Result_append (h l : Word) (b : Dword) : aes64ks2Result (h ++ l) b =
    (h ^^^ b.setWidth 32 ^^^ b.extractLsb' 32 32) ++ (h ^^^ b.setWidth 32) := by
  rw [aes64ks2Result, highWord_append]; rfl

/-- Settles O43: the frames by issuing, the exceptions by well-formedness, the corner cases by the high word the
two steps read, and the examples of R60 and R61 by evaluation. -/
theorem aesKeyScheduleStepsWriteTheirWords : Obligations.AesKeyScheduleStepsWriteTheirWords := by
  refine ⟨fun s rd rs1 rnum => ⟨fun hx hr => ?ks1i, fun h => ?ks1iIllegal, Laws.hasFormatIrnum_of_encode rfl⟩,
    fun s rd rs1 rs2 => ⟨fun hx => completesWith_at_rv64 hx rfl rfl rfl, fun hx => raisesIllegal_at_rv32 hx rfl,
      Laws.hasFormatR_of_encode rfl rfl⟩, fun h l m rnum b => ?corners, by decide⟩
  case ks1i =>
    refine completesWith_at_rv64 hx ?_ rfl ?_
    · simp [wellFormed_aes64ks1i, hr]
    · rw [aes64ks1iResult, ror_eq_rotateRight]; rfl
  case ks1iIllegal =>
    refine raisesIllegal_of_not_wellFormed ?_
    rw [wellFormed_aes64ks1i]
    rcases h with hx | hr
    · rw [hx]; rfl
    · simp [hr]
  case corners =>
    refine ⟨by rw [aes64ks1iResult_append, aes64ks1iResult_append],
      by rw [aes64ks2Result_append, aes64ks2Result_append], ?subWordOnly, ?equalHalves, ?zeroHigh⟩
    case subWordOnly =>
      rw [aes64ks1iResult_append, if_pos rfl, show aesRcon 0xA = 0#32 from rfl, BitVec.xor_zero]
    case equalHalves =>
      rw [aes64ks1iResult_append, BitVec.setWidth_append_eq_right]
      exact highWord_append _ _
    case zeroHigh =>
      rw [aes64ks2Result_append, BitVec.zero_xor, BitVec.xor_comm]

end Sys2Proof.Machine
end

section
/-!
PROOFS for 44_sha256.md, R62 to R65: XOR-linearity of rotations and shifts, rotations commuting with one another,
and the four SHA-256 functions as XOR sums of them.
-/

namespace Sys2Proof.Machine

/-! ### XOR sums of rotations and shifts -/

/-- Each bit of a rotation is one bit of its operand, so rotations go through XOR. -/
theorem ror_xor {w : Nat} (x y : BitVec w) (n : Nat) : ror (x ^^^ y) n = ror x n ^^^ ror y n := by
  refine BitVec.eq_of_getLsbD_eq fun k hk => ?_
  simp only [BitVec.getLsbD_xor, getLsbD_ror _ n hk]

theorem xorHom_ror {w : Nat} (n : Nat) : XorHom (fun x : BitVec w => ror x n) := fun x y => ror_xor x y n

theorem xorHom_ushiftRight {w : Nat} (n : Nat) : XorHom (fun x : BitVec w => x >>> n) :=
  fun x y => BitVec.ushiftRight_xor_distrib x y n

/-- The XOR of two linear functions is linear. -/
theorem XorHom.xor {v w : Nat} {f g : BitVec v → BitVec w} (hf : XorHom f) (hg : XorHom g) :
    XorHom (fun x => f x ^^^ g x) := by
  intro x y
  simp only [hf x y, hg x y]
  ac_rfl

theorem ror_ror_comm {w : Nat} (x : BitVec w) (n m : Nat) : ror (ror x n) m = ror (ror x m) n := by
  rw [ror_ror, ror_ror, Nat.add_comm]

/-! ### The four functions (R62 to R65) -/

theorem sha256sig0Result_eq (v : Word) :
    sha256sig0Result v = v.rotateRight 7 ^^^ v.rotateRight 18 ^^^ (v >>> 3) := by
  simp only [sha256sig0Result, ror_eq_rotateRight]

theorem sha256sig1Result_eq (v : Word) :
    sha256sig1Result v = v.rotateRight 17 ^^^ v.rotateRight 19 ^^^ (v >>> 10) := by
  simp only [sha256sig1Result, ror_eq_rotateRight]

theorem sha256sum0Result_eq (v : Word) :
    sha256sum0Result v = v.rotateRight 2 ^^^ v.rotateRight 13 ^^^ v.rotateRight 22 := by
  simp only [sha256sum0Result, ror_eq_rotateRight]

theorem sha256sum1Result_eq (v : Word) :
    sha256sum1Result v = v.rotateRight 6 ^^^ v.rotateRight 11 ^^^ v.rotateRight 25 := by
  simp only [sha256sum1Result, ror_eq_rotateRight]

theorem sha256sig0Result_xor : XorHom sha256sig0Result :=
  ((xorHom_ror 7).xor (xorHom_ror 18)).xor (xorHom_ushiftRight 3)

theorem sha256sig1Result_xor : XorHom sha256sig1Result :=
  ((xorHom_ror 17).xor (xorHom_ror 19)).xor (xorHom_ushiftRight 10)

theorem sha256sum0Result_xor : XorHom sha256sum0Result :=
  ((xorHom_ror 2).xor (xorHom_ror 13)).xor (xorHom_ror 22)

theorem sha256sum1Result_xor : XorHom sha256sum1Result :=
  ((xorHom_ror 6).xor (xorHom_ror 11)).xor (xorHom_ror 25)

/-- A sum of rotations alone, with no shift, commutes with every rotation. -/
theorem sha256sum0Result_rotateRight (a : Word) (n : Nat) :
    sha256sum0Result (a.rotateRight n) = (sha256sum0Result a).rotateRight n := by
  rw [← ror_eq_rotateRight, ← ror_eq_rotateRight]
  calc sha256sum0Result (ror a n)
      = ror (ror a 2) n ^^^ ror (ror a 13) n ^^^ ror (ror a 22) n := by
        rw [sha256sum0Result, ror_ror_comm a n 2, ror_ror_comm a n 13, ror_ror_comm a n 22]
    _ = ror (sha256sum0Result a) n := by rw [sha256sum0Result, ror_xor, ror_xor]

/-- How a completion with a 32-bit result is shown, when the rule spells that result in its own way. -/
theorem completesWith_wordResult_of_eq {i : Instr} {s : State} {rd : Reg} {r q : Word}
    (hw : i.wellFormed s.xlen = true) (h : exec i s = s.issue i rd (result32 s.xlen r)) (hr : r = q) :
    CompletesWith i s rd (wordResult s.xlen q) := hr ▸ completesWith_wordResult h hw

/-- Settles O44: the frames by issuing the low word's formula, linearity and rotation from those of the terms, and
the corner cases and examples of R62 to R65 by evaluation. -/
theorem sha256FunctionsWriteTheirFormulas : Obligations.Sha256FunctionsWriteTheirFormulas := by
  refine ⟨fun s rd rs1 => ?instructions,
    fun a b => ⟨sha256sig0Result_xor a b, sha256sig1Result_xor a b, sha256sum0Result_xor a b,
      sha256sum1Result_xor a b⟩,
    sha256sum0Result_rotateRight, by decide, by decide, by decide, by decide, by decide, by decide⟩
  case instructions =>
    exact ⟨completesWith_wordResult_of_eq rfl rfl (sha256sig0Result_eq _),
      completesWith_wordResult_of_eq rfl rfl (sha256sig1Result_eq _),
      completesWith_wordResult_of_eq rfl rfl (sha256sum0Result_eq _),
      completesWith_wordResult_of_eq rfl rfl (sha256sum1Result_eq _),
      Laws.hasFormatIunary_of_encode rfl rfl, Laws.hasFormatIunary_of_encode rfl rfl,
      Laws.hasFormatIunary_of_encode rfl rfl, Laws.hasFormatIunary_of_encode rfl rfl⟩

end Sys2Proof.Machine
end

section
/-!
PROOFS for 45_sha512.md, R66 to R76: rotations and shifts of a doubleword hi @ lo by its halves, the split formulas as
the halves of the reference functions, and what the ten instructions write and where they exist.
-/

namespace Sys2Proof.Machine

/-! ### Rotations and shifts of a doubleword by its halves (R66, the derivation of the split formulas) -/

/-- The two parts of a rotation do not overlap, so they may be joined by XOR. -/
theorem ror_eq_xor {w : Nat} (x : BitVec w) (n m : Nat) (hnm : n + m = w) : ror x n = (x >>> n) ^^^ (x <<< m) := by
  refine BitVec.eq_of_getLsbD_eq fun k hk => ?_
  rw [getLsbD_ror x n hk, BitVec.getLsbD_xor, BitVec.getLsbD_ushiftRight, BitVec.getLsbD_shiftLeft]
  by_cases hlow : k < m
  · have hmod : (k + n) % w = n + k := by rw [Nat.mod_eq_of_lt (by omega), Nat.add_comm]
    simp [hlow, hmod]
  · have hmod : (k + n) % w = k - m := by rw [Nat.mod_eq_sub_mod (by omega), Nat.mod_eq_of_lt (by omega)]; omega
    have hout : x.getLsbD (n + k) = false := BitVec.getLsbD_of_ge _ _ (by omega)
    simp [hlow, hmod, hout, hk]

/-- A right shift by at most a word moves low bits of the high half into the low half. -/
theorem ushiftRight_append (h l : Word) (n m : Nat) (hnm : n + m = 32) :
    (h ++ l : Dword) >>> n = (h >>> n) ++ ((l >>> n) ^^^ (h <<< m)) := by
  refine BitVec.eq_of_getLsbD_eq fun k hk => ?_
  rw [BitVec.getLsbD_ushiftRight, BitVec.getLsbD_append, BitVec.getLsbD_append, BitVec.getLsbD_xor,
    BitVec.getLsbD_ushiftRight, BitVec.getLsbD_ushiftRight, BitVec.getLsbD_shiftLeft]
  by_cases hlow : k < m
  · simp [hlow, show n + k < 32 by omega, show k < 32 by omega]
  · by_cases hk32 : k < 32
    · have hout : l.getLsbD (n + k) = false := BitVec.getLsbD_of_ge _ _ (by omega)
      simp [hlow, hk32, hout, show ¬ n + k < 32 by omega, show n + k - 32 = k - m by omega]
    · simp [hk32, show ¬ n + k < 32 by omega, show n + k - 32 = n + (k - 32) by omega]

/-- A left shift by at least a word empties the low half. -/
theorem shiftLeft_append_add_32 (h l : Word) (m : Nat) : (h ++ l : Dword) <<< (32 + m) = (l <<< m) ++ 0#32 := by
  refine BitVec.eq_of_getLsbD_eq fun k hk => ?_
  rw [BitVec.getLsbD_shiftLeft, BitVec.getLsbD_append, BitVec.getLsbD_append, BitVec.getLsbD_shiftLeft]
  by_cases hk32 : k < 32
  · simp [hk32, show k < 32 + m by omega]
  · have hlow : k < 32 + m ↔ k - 32 < m := by omega
    simp [hk, hk32, hlow, show k - 32 < 32 by omega, show k - (32 + m) = k - 32 - m by omega,
      show k - 32 - m < 32 by omega]

/-- A rotation by at most a word: each half takes its missing bits from the other. -/
theorem ror_append (h l : Word) (n m : Nat) (hnm : n + m = 32) :
    ror (h ++ l : Dword) n = ((h >>> n) ^^^ (l <<< m)) ++ ((l >>> n) ^^^ (h <<< m)) := by
  rw [ror_eq_xor _ n (32 + m) (by omega), ushiftRight_append h l n m hnm, shiftLeft_append_add_32, BitVec.xor_append,
    BitVec.xor_zero]

/-- Rotating by a whole word more exchanges the halves. -/
theorem ror_append_add_32 (h l : Word) (n : Nat) : ror (h ++ l : Dword) (32 + n) = ror (l ++ h : Dword) n := by
  have hswap : ror (h ++ l : Dword) 32 = l ++ h := by
    refine BitVec.eq_of_getLsbD_eq fun k hk => ?_
    rw [getLsbD_ror _ 32 hk, BitVec.getLsbD_append, BitVec.getLsbD_append]
    by_cases hk32 : k < 32
    · rw [if_neg (by omega), if_pos hk32, show (k + 32) % 64 - 32 = k by omega]
    · rw [if_pos (by omega), if_neg hk32, show (k + 32) % 64 = k - 32 by omega]
  rw [← ror_ror, hswap]

/-- With commutativity, it sorts the terms of an XOR sum. -/
theorem xor_left_comm {w : Nat} (x y z : BitVec w) : x ^^^ (y ^^^ z) = y ^^^ (x ^^^ z) := by
  rw [← BitVec.xor_assoc, BitVec.xor_comm x y, BitVec.xor_assoc]

/-! ### The reference functions (R66) and their split formulas (R71 to R76) -/

theorem sha512sig0Result_eq (v : Dword) :
    sha512sig0Result v = v.rotateRight 1 ^^^ v.rotateRight 8 ^^^ (v >>> 7) := by
  simp only [sha512sig0Result, ror_eq_rotateRight]

theorem sha512sig1Result_eq (v : Dword) :
    sha512sig1Result v = v.rotateRight 19 ^^^ v.rotateRight 61 ^^^ (v >>> 6) := by
  simp only [sha512sig1Result, ror_eq_rotateRight]

theorem sha512sum0Result_eq (v : Dword) :
    sha512sum0Result v = v.rotateRight 28 ^^^ v.rotateRight 34 ^^^ v.rotateRight 39 := by
  simp only [sha512sum0Result, ror_eq_rotateRight]

theorem sha512sum1Result_eq (v : Dword) :
    sha512sum1Result v = v.rotateRight 14 ^^^ v.rotateRight 18 ^^^ v.rotateRight 41 := by
  simp only [sha512sum1Result, ror_eq_rotateRight]

theorem sha512sig0Result_xor : XorHom sha512sig0Result :=
  ((xorHom_ror 1).xor (xorHom_ror 8)).xor (xorHom_ushiftRight 7)

/-- R66's identity: `high` of hi and lo, and `low` of lo and hi, are the two halves of f(hi @ lo). -/
def SplitsInto (f : Dword → Dword) (high low : Word → Word → Word) : Prop :=
  ∀ hi lo : Word, f (hi ++ lo) = high hi lo ++ low lo hi

theorem SplitsInto.high_eq {f : Dword → Dword} {high low : Word → Word → Word} (h : SplitsInto f high low)
    (hi lo : Word) : high hi lo = (f (hi ++ lo)).extractLsb' 32 32 := by
  rw [h hi lo]; exact (highWord_append _ _).symm

theorem SplitsInto.low_eq {f : Dword → Dword} {high low : Word → Word → Word} (h : SplitsInto f high low)
    (hi lo : Word) : low lo hi = (f (hi ++ lo)).setWidth 32 := by
  rw [h hi lo]; exact (lowWord_append _ _).symm

theorem sha512sig0Result_splits : SplitsInto sha512sig0Result sha512sig0hResult sha512sig0lResult := by
  intro hi lo
  rw [sha512sig0Result, ror_append hi lo 1 31 rfl, ror_append hi lo 8 24 rfl, ushiftRight_append hi lo 7 25 rfl,
    BitVec.xor_append, BitVec.xor_append, sha512sig0hResult, sha512sig0lResult]
  congr 1 <;> simp only [BitVec.xor_comm, xor_left_comm]

theorem sha512sig1Result_splits : SplitsInto sha512sig1Result sha512sig1hResult sha512sig1lResult := by
  intro hi lo
  rw [sha512sig1Result, ror_append hi lo 19 13 rfl, ror_append_add_32 hi lo 29, ror_append lo hi 29 3 rfl,
    ushiftRight_append hi lo 6 26 rfl, BitVec.xor_append, BitVec.xor_append, sha512sig1hResult, sha512sig1lResult]
  congr 1 <;> simp only [BitVec.xor_comm, xor_left_comm]

/-- A sum of rotations alone has one formula for both halves. -/
theorem sha512sum0Result_splits : SplitsInto sha512sum0Result sha512sum0rResult sha512sum0rResult := by
  intro hi lo
  rw [sha512sum0Result, ror_append hi lo 28 4 rfl, ror_append_add_32 hi lo 2, ror_append lo hi 2 30 rfl,
    ror_append_add_32 hi lo 7, ror_append lo hi 7 25 rfl, BitVec.xor_append, BitVec.xor_append, sha512sum0rResult,
    sha512sum0rResult]
  congr 1 <;> simp only [BitVec.xor_comm, xor_left_comm]

theorem sha512sum1Result_splits : SplitsInto sha512sum1Result sha512sum1rResult sha512sum1rResult := by
  intro hi lo
  rw [sha512sum1Result, ror_append hi lo 14 18 rfl, ror_append hi lo 18 14 rfl, ror_append_add_32 hi lo 9,
    ror_append lo hi 9 23 rfl, BitVec.xor_append, BitVec.xor_append, sha512sum1rResult, sha512sum1rResult]
  congr 1 <;> simp only [BitVec.xor_comm, xor_left_comm]

/-- On equal halves the 64-bit rotations by 28, 34 and 39 are 32-bit ones by 28, 2 and 7. -/
theorem sha512sum0rResult_self (r : Word) :
    sha512sum0rResult r r = r.rotateRight 28 ^^^ r.rotateRight 2 ^^^ r.rotateRight 7 := by
  rw [← ror_eq_rotateRight, ← ror_eq_rotateRight, ← ror_eq_rotateRight, ror_eq_xor r 28 4 rfl,
    ror_eq_xor r 2 30 rfl, ror_eq_xor r 7 25 rfl, sha512sum0rResult]
  simp only [BitVec.xor_comm, xor_left_comm]

/-! ### The instructions (R67 to R76) -/

/-- An instruction that exists at XLEN 32 and issues a word writes it. -/
theorem completesWith_at_rv32 {i : Instr} {s : State} {rd : Reg} {r : Word} (hx : s.xlen = .rv32)
    (hw : i.wellFormed .rv32 = true) (h : exec i s = s.issue i rd (r.setWidth 64)) :
    CompletesWith i s rd (r.setWidth 64) := completesWith_of_issue h (hx ▸ hw) (truncX_setWidth ..)

/-- Settles O45: the frames by issuing the reference functions, the exception by the XLEN, linearity from that of the
terms, and the corner cases and examples of R67 to R70 by evaluation. -/
theorem sha512DirectFormsWriteTheReferenceFunctions : Obligations.Sha512DirectFormsWriteTheReferenceFunctions := by
  refine ⟨fun s rd rs1 => ⟨fun hx => ?frame, fun hx => ?illegal, ?formats⟩, sha512sig0Result_xor, by decide,
    by decide, by decide, by decide⟩
  case frame =>
    exact ⟨completesWith_at_rv64 hx rfl rfl (sha512sig0Result_eq _),
      completesWith_at_rv64 hx rfl rfl (sha512sig1Result_eq _),
      completesWith_at_rv64 hx rfl rfl (sha512sum0Result_eq _),
      completesWith_at_rv64 hx rfl rfl (sha512sum1Result_eq _)⟩
  case illegal =>
    exact ⟨raisesIllegal_at_rv32 hx rfl, raisesIllegal_at_rv32 hx rfl, raisesIllegal_at_rv32 hx rfl,
      raisesIllegal_at_rv32 hx rfl⟩
  case formats =>
    exact ⟨Laws.hasFormatIunary_of_encode rfl rfl, Laws.hasFormatIunary_of_encode rfl rfl,
      Laws.hasFormatIunary_of_encode rfl rfl, Laws.hasFormatIunary_of_encode rfl rfl⟩

/-- Settles O46: the frames by issuing the split formulas, the exception by the XLEN, the halves by R66's identity,
and the corner cases and examples of R71 to R76 by evaluation. -/
theorem sha512SplitFormsWriteTheirFormulas : Obligations.Sha512SplitFormsWriteTheirFormulas := by
  refine ⟨fun s rd rs1 rs2 => ⟨fun hx => ?frame, fun hx => ?illegal, ?formats⟩, fun hi lo => ?halves,
    sha512sum0rResult_self, by decide, by decide, by decide, by decide, by decide, by decide⟩
  case frame =>
    exact ⟨completesWith_at_rv32 hx rfl rfl, completesWith_at_rv32 hx rfl rfl, completesWith_at_rv32 hx rfl rfl,
      completesWith_at_rv32 hx rfl rfl, completesWith_at_rv32 hx rfl rfl, completesWith_at_rv32 hx rfl rfl⟩
  case illegal =>
    exact ⟨raisesIllegal_at_rv64 hx rfl, raisesIllegal_at_rv64 hx rfl, raisesIllegal_at_rv64 hx rfl,
      raisesIllegal_at_rv64 hx rfl, raisesIllegal_at_rv64 hx rfl, raisesIllegal_at_rv64 hx rfl⟩
  case formats =>
    exact ⟨Laws.hasFormatR_of_encode rfl rfl, Laws.hasFormatR_of_encode rfl rfl, Laws.hasFormatR_of_encode rfl rfl,
      Laws.hasFormatR_of_encode rfl rfl, Laws.hasFormatR_of_encode rfl rfl, Laws.hasFormatR_of_encode rfl rfl⟩
  case halves =>
    exact ⟨sha512sig0Result_splits.high_eq hi lo, sha512sig0Result_splits.low_eq hi lo,
      sha512sig1Result_splits.high_eq hi lo, sha512sig1Result_splits.low_eq hi lo,
      sha512sum0Result_splits.high_eq hi lo, sha512sum0Result_splits.low_eq hi lo,
      sha512sum1Result_splits.high_eq hi lo, sha512sum1Result_splits.low_eq hi lo⟩

/-! ### Two hosts (R66) -/

/-- A 64-bit host and a 32-bit host whose registers hold one value hi @ lo, where `direct` issues f on the first and
`highForm` and `lowForm` issue the two formulas f splits into on the second. -/
theorem splitForms_complete_with_halves {s u : State} {rd r rhi rlo : Reg} {direct highForm lowForm : Instr}
    {f : Dword → Dword} {high low : Word → Word → Word} (hf : SplitsInto f high low)
    (hr : u.readReg r = (s.readReg rhi).setWidth 32 ++ (s.readReg rlo).setWidth 32)
    (hdirect : CompletesWith direct u rd (f (u.readReg r)))
    (hhigh : CompletesWith highForm s rd ((high (s.readWord rhi) (s.readWord rlo)).setWidth 64))
    (hlow : CompletesWith lowForm s rd ((low (s.readWord rlo) (s.readWord rhi)).setWidth 64)) :
    ∃ h l : Word, CompletesWith direct u rd (h ++ l) ∧ CompletesWith highForm s rd (h.setWidth 64) ∧
      CompletesWith lowForm s rd (l.setWidth 64) := by
  have hvalue : f (u.readReg r) = high (s.readWord rhi) (s.readWord rlo) ++ low (s.readWord rlo) (s.readWord rhi) :=
    (congrArg f hr).trans (hf _ _)
  exact ⟨_, _, hvalue ▸ hdirect, hhigh, hlow⟩

/-- Settles O47: on each host the instructions complete with their formulas, which R66's identity joins. -/
theorem splitFormsComputeTheHalvesOfTheDirectForms : Obligations.SplitFormsComputeTheHalvesOfTheDirectForms := by
  refine ⟨fun v => ⟨sha512sig0Result_eq v, sha512sig1Result_eq v, sha512sum0Result_eq v, sha512sum1Result_eq v⟩,
    fun s u rd r rhi rlo hs hu hr => ⟨?sig0, ?sig1, ?sum0, ?sum1⟩⟩
  case sig0 =>
    exact splitForms_complete_with_halves sha512sig0Result_splits hr (completesWith_at_rv64 hu rfl rfl rfl)
      (completesWith_at_rv32 hs rfl rfl) (completesWith_at_rv32 hs rfl rfl)
  case sig1 =>
    exact splitForms_complete_with_halves sha512sig1Result_splits hr (completesWith_at_rv64 hu rfl rfl rfl)
      (completesWith_at_rv32 hs rfl rfl) (completesWith_at_rv32 hs rfl rfl)
  case sum0 =>
    exact splitForms_complete_with_halves sha512sum0Result_splits hr (completesWith_at_rv64 hu rfl rfl rfl)
      (completesWith_at_rv32 hs rfl rfl) (completesWith_at_rv32 hs rfl rfl)
  case sum1 =>
    exact splitForms_complete_with_halves sha512sum1Result_splits hr (completesWith_at_rv64 hu rfl rfl rfl)
      (completesWith_at_rv32 hs rfl rfl) (completesWith_at_rv32 hs rfl rfl)

end Sys2Proof.Machine
end

section
/-!
PROOFS for 46_sm3.md, R77 and R78: left rotations going through XOR and commuting with one another, and the two SM3
permutations as XOR sums of them.
-/

namespace Sys2Proof.Machine

/-! ### Left rotations, as terms of an XOR sum -/

theorem rol_xor {w : Nat} (x y : BitVec w) (n : Nat) : rol (x ^^^ y) n = rol x n ^^^ rol y n := ror_xor x y _

theorem xorHom_rol {w : Nat} (n : Nat) : XorHom (fun x : BitVec w => rol x n) := fun x y => rol_xor x y n

theorem rol_rol_comm {w : Nat} (x : BitVec w) (n m : Nat) : rol (rol x n) m = rol (rol x m) n := ror_ror_comm x _ _

theorem xorHom_id {w : Nat} : XorHom (fun x : BitVec w => x) := fun _ _ => rfl

/-! ### The two permutations (R77, R78) -/

theorem sm3p0Result_eq (v : Word) : sm3p0Result v = v ^^^ v.rotateLeft 9 ^^^ v.rotateLeft 17 := by
  simp only [sm3p0Result, rol_eq_rotateLeft]

theorem sm3p1Result_eq (v : Word) : sm3p1Result v = v ^^^ v.rotateLeft 15 ^^^ v.rotateLeft 23 := by
  simp only [sm3p1Result, rol_eq_rotateLeft]

theorem sm3p0Result_xor : XorHom sm3p0Result := (xorHom_id.xor (xorHom_rol 9)).xor (xorHom_rol 17)

theorem sm3p1Result_xor : XorHom sm3p1Result := (xorHom_id.xor (xorHom_rol 15)).xor (xorHom_rol 23)

/-- A sum of rotations, the value itself among them, commutes with every rotation. -/
theorem sm3p0Result_rotateLeft (a : Word) (n : Nat) :
    sm3p0Result (a.rotateLeft n) = (sm3p0Result a).rotateLeft n := by
  rw [← rol_eq_rotateLeft, ← rol_eq_rotateLeft]
  calc sm3p0Result (rol a n)
      = rol a n ^^^ rol (rol a 9) n ^^^ rol (rol a 17) n := by
        rw [sm3p0Result, rol_rol_comm a n 9, rol_rol_comm a n 17]
    _ = rol (sm3p0Result a) n := by rw [sm3p0Result, rol_xor, rol_xor]

/-- Settles O48: the frames by issuing the low word's formula, linearity and rotation from those of the terms, and
the corner cases and examples of R77 and R78 by evaluation. -/
theorem sm3PermutationsWriteTheirFormulas : Obligations.Sm3PermutationsWriteTheirFormulas := by
  refine ⟨fun s rd rs1 => ?instructions, fun a b => ⟨sm3p0Result_xor a b, sm3p1Result_xor a b⟩,
    sm3p0Result_rotateLeft, by decide, by decide, by decide, by decide, by decide⟩
  case instructions =>
    exact ⟨completesWith_wordResult_of_eq rfl rfl (sm3p0Result_eq _),
      completesWith_wordResult_of_eq rfl rfl (sm3p1Result_eq _),
      Laws.hasFormatIunary_of_encode rfl rfl, Laws.hasFormatIunary_of_encode rfl rfl⟩

end Sys2Proof.Machine
end

section
/-!
PROOFS for 41_clmul.md, the product bit by bit: both the product and the sum over the degrees are linear in the
second operand, so its single bits decide.
-/

namespace Sys2Proof.Machine

/-! ### XOR over a range -/

/-- The XOR of f 0 to f (n - 1). -/
def xorBelow (n : Nat) (f : Nat → Bool) : Bool := (List.range n).foldl (fun acc i => acc ^^ f i) false

@[simp] theorem xorBelow_zero (f : Nat → Bool) : xorBelow 0 f = false := rfl

theorem xorBelow_succ (n : Nat) (f : Nat → Bool) : xorBelow (n + 1) f = (xorBelow n f ^^ f n) := by
  simp [xorBelow, List.range_succ]

theorem xorBelow_xor (n : Nat) (f g : Nat → Bool) :
    xorBelow n (fun i => f i ^^ g i) = (xorBelow n f ^^ xorBelow n g) := by
  induction n with
  | zero => rfl
  | succ n ih => simp only [xorBelow_succ, ih, Bool.xor_assoc, Bool.xor_left_comm]

/-- A sum with one term at most. -/
theorem xorBelow_of_eq_false {n m : Nat} {f : Nat → Bool} (h : ∀ i < n, i ≠ m → f i = false) :
    xorBelow n f = (decide (m < n) && f m) := by
  induction n with
  | zero => simp
  | succ n ih =>
    rw [xorBelow_succ, ih fun i hi => h i (by omega)]
    rcases eq_or_ne n m with rfl | hne
    · simp
    · have hlt : m < n + 1 ↔ m < n := by omega
      simp [h n (by omega) hne, hlt]

/-! ### The bits of the product -/

/-- Bit k of the product, as a sum over the degrees i of the first operand. -/
def degreeSum {w : Nat} (a b : BitVec w) (k : Nat) : Bool :=
  xorBelow (k + 1) fun i => a.getLsbD i && b.getLsbD (k - i)

theorem degreeSum_xor_right {w : Nat} (a b c : BitVec w) (k : Nat) :
    degreeSum a (b ^^^ c) k = (degreeSum a b k ^^ degreeSum a c k) := by
  simp only [degreeSum, ← xorBelow_xor, BitVec.getLsbD_xor, Bool.and_xor_distrib_left]

theorem degreeSum_zero_right {w : Nat} (a : BitVec w) (k : Nat) : degreeSum a 0#w k = false := by
  simpa using degreeSum_xor_right a 0#w 0#w k

/-- Against the power j of x, the one term left is that of degree k - j. -/
theorem degreeSum_twoPow {w j : Nat} (a : BitVec w) (hj : j < w) (k : Nat) :
    degreeSum a (BitVec.twoPow w j) k = (decide (j ≤ k) && a.getLsbD (k - j)) := by
  have hterm : ∀ i < k + 1, i ≠ (if j ≤ k then k - j else k + 1) →
      (a.getLsbD i && (BitVec.twoPow w j).getLsbD (k - i)) = false := by
    intro i hi hne
    have hdegree : j ≠ k - i := by split at hne <;> omega
    simp [BitVec.getLsbD_twoPow, hdegree]
  rw [degreeSum, xorBelow_of_eq_false hterm]
  by_cases hjk : j ≤ k
  · have hin : k - j < k + 1 := by omega
    have hback : k - (k - j) = j := by omega
    simp [hjk, hin, hback, hj]
  · simp [hjk]

theorem getLsbD_clmulFull {w : Nat} (a b : BitVec w) (k : Nat) : (clmulFull a b).getLsbD k = degreeSum a b k := by
  induction b using xor_induction with
  | zero => rw [clmulFull_zero_right, BitVec.getLsbD_zero, degreeSum_zero_right]
  | bit j hj =>
    rw [clmulFull_twoPow a hj, degreeSum_twoPow a hj, BitVec.getLsbD_shiftLeft, BitVec.getLsbD_setWidth]
    by_cases hk : k < 2 * w
    · have hin : k - j < 2 * w := by omega
      have hle : (!decide (k < j)) = decide (j ≤ k) := by rw [← decide_not, decide_eq_decide, Nat.not_lt]
      simp [hk, hin, hle]
    · have hout : a.getLsbD (k - j) = false := BitVec.getLsbD_of_ge _ _ (by omega)
      simp [hout]
  | xor b c hb hc => rw [clmulFull_xor_right, BitVec.getLsbD_xor, hb, hc, degreeSum_xor_right]

/-- Settles O39: the bits are those of the degree sum, and the degree of the product is at most 2w - 2. -/
theorem carrylessProductBitsAreTheDegreeSums : Obligations.CarrylessProductBitsAreTheDegreeSums :=
  fun _ a b => ⟨getLsbD_clmulFull a b, getLsbD_clmulFull_top a b⟩

end Sys2Proof.Machine
end

section
/-!
PROOFS for 47_sm4.md, R79 and R80: the two linear transforms as XOR sums of rotations, what an instruction writes
from one byte, and four calls that make the whole transform.
-/

namespace Sys2Proof.Machine

/-! ### The linear transforms (section 1) -/

theorem sm4L_eq (v : Word) : sm4L v =
    v ^^^ v.rotateLeft 2 ^^^ v.rotateLeft 10 ^^^ v.rotateLeft 18 ^^^ v.rotateLeft 24 := by
  simp only [sm4L, rol_eq_rotateLeft]

theorem sm4Lk_eq (v : Word) : sm4Lk v = v ^^^ v.rotateLeft 13 ^^^ v.rotateLeft 23 := by
  simp only [sm4Lk, rol_eq_rotateLeft]

theorem sm4L_xor : XorHom sm4L :=
  (((xorHom_id.xor (xorHom_rol 2)).xor (xorHom_rol 10)).xor (xorHom_rol 18)).xor (xorHom_rol 24)

theorem sm4Lk_xor : XorHom sm4Lk := (xorHom_id.xor (xorHom_rol 13)).xor (xorHom_rol 23)

theorem sm4L_rotateLeft (v : Word) (n : Nat) : sm4L (v.rotateLeft n) = (sm4L v).rotateLeft n := by
  simp only [← rol_eq_rotateLeft, sm4L, rol_rol_comm v n, rol_xor]

theorem sm4Lk_rotateLeft (v : Word) (n : Nat) : sm4Lk (v.rotateLeft n) = (sm4Lk v).rotateLeft n := by
  simp only [← rol_eq_rotateLeft, sm4Lk, rol_rol_comm v n, rol_xor]

/-! ### One call (R79, R80) -/

/-- The slotted form with its byte read from the whole register and its rotation as the rules write it. -/
theorem slotted_readWord (contribution : Byte → Word) (s : State) (rs1 rs2 : Reg) (bs : BitVec 2) :
    slotted contribution (s.readWord rs1) (s.readWord rs2) bs = (s.readReg rs1).setWidth 32 ^^^
      (contribution (byteAt (s.readReg rs2) bs.toNat)).rotateLeft (8 * bs.toNat) := by
  have hbyte : byteAt (s.readWord rs2) bs.toNat = byteAt (s.readReg rs2) bs.toNat :=
    byteAt_lowWord (s.readReg rs2) bs.isLt
  rw [slotted, hbyte, rol_eq_rotateLeft, State.readWord, lowWord]

/-- Settles O49: the frames by issuing a slotted transform, the corner case by the contribution of 0x00, and the
examples of R79 and R80 by evaluation. -/
theorem sm4InstructionsSubstituteOneByteAndAccumulate :
    Obligations.Sm4InstructionsSubstituteOneByteAndAccumulate := by
  refine ⟨fun s rd rs1 rs2 bs => ?instructions, fun acc src bs hbyte => ?corner, by decide, by decide, by decide,
    by decide, by decide, by decide, by decide, by decide⟩
  case instructions =>
    refine ⟨completesWith_wordResult_of_eq rfl rfl ?ed, completesWith_wordResult_of_eq rfl rfl ?ks,
      Laws.hasFormatRbs_of_encode rfl rfl, Laws.hasFormatRbs_of_encode rfl rfl⟩
    case ed => rw [sm4edResult, slotted_readWord, sm4L_eq]
    case ks => rw [sm4ksResult, slotted_readWord, sm4Lk_eq]
  case corner =>
    have hL : sm4L ((sm4Sbox 0x71).setWidth 32) = 0#32 := by decide
    have hLk : sm4Lk ((sm4Sbox 0x71).setWidth 32) = 0#32 := by decide
    exact ⟨slotted_eq_self acc (hbyte ▸ hL), slotted_eq_self acc (hbyte ▸ hLk)⟩

/-! ### Four calls -/

/-- A linear function that commutes with rotations is the sum of its images of single bytes. -/
theorem sumsContributions_of_linear {column : Word → Word} (hxor : XorHom column)
    (hrot : ∀ v n, column (v.rotateLeft n) = (column v).rotateLeft n) :
    SumsContributions column (fun b => column (b.setWidth 32)) := by
  intro c
  conv_lhs => rw [eq_xor_rotateLeft_bytes c]
  rw [hxor, hxor, hxor, hrot, hrot, hrot]

/-- The four bytes of one word, picked in order. -/
theorem pickColumn_const (c : Word) : pickColumn (fun _ => c) = c := packBytes_byteAt 4 c (by decide)

/-- Settles O53: both transforms are linear and commute with rotations, and all four calls read one source. -/
theorem fourSm4CallsMakeTheRoundTransform : Obligations.FourSm4CallsMakeTheRoundTransform := by
  intro acc t
  have hed := fourCalls_slotted (sumsContributions_of_linear sm4L_xor sm4L_rotateLeft) sm4Sbox acc fun _ => t
  have hks := fourCalls_slotted (sumsContributions_of_linear sm4Lk_xor sm4Lk_rotateLeft) sm4Sbox acc fun _ => t
  rw [pickColumn_const] at hed hks
  exact ⟨hed, hks⟩

end Sys2Proof.Machine
end

section
/-!
PROOFS for 60_exceptions.md, R81 to R87: where a fetch fails, what a step does at each decoding, the two ways an
instruction ends, and trap entry and return.
-/

namespace Sys2Proof.Machine

/-! ### The fetch's own faults (R82, R84) -/

theorem aligned4_iff_extractLsb' (v : XWord) : Aligned4 v ↔ v.extractLsb' 0 2 = 0 := by
  refine ⟨extractLsb'_low_two_of_aligned, fun h => ?_⟩
  have hmod := congrArg BitVec.toNat h
  rwa [BitVec.extractLsb'_toNat, Nat.shiftRight_zero] at hmod

/-- A load that meets a byte without a value has none. -/
theorem memRead_eq_none {n : Nat} {s : State} {a : XWord} {k : Nat} (hk : k < n)
    (h : s.readByte (a + BitVec.ofNat 64 k) = none) : s.memRead a n = none := by
  induction n generalizing a k with
  | zero => omega
  | succ n ih =>
    cases k with
    | zero =>
      have hfirst : s.readByte a = none := by simpa using h
      rw [State.memRead, hfirst]
    | succ k =>
      have hrest : s.memRead (a + 1) n = none := ih (k := k) (by omega) (by rwa [add_one_add_ofNat])
      rw [State.memRead, hrest]
      cases s.readByte a <;> rfl

theorem fetchWord_of_not_aligned {s : State} (h : ¬ Aligned4 s.readPc) :
    s.fetchWord = .error (.fetchMisaligned s.readPc) := by
  rw [aligned4_iff_extractLsb'] at h
  rw [State.fetchWord, if_neg h]

theorem fetchWord_of_readByte_eq_none {s : State} (hpc : Aligned4 s.readPc) {k : Nat} (hk : k < 4)
    (h : s.readByte (s.readPc + BitVec.ofNat 64 k) = none) : s.fetchWord = .error (.fetchUnwritten s.readPc) := by
  rw [State.fetchWord, if_pos (extractLsb'_low_two_of_aligned hpc), memRead_eq_none hk h]

theorem step_of_fetchWord_error {s : State} {f : Fault} (h : s.fetchWord = .error f) : step s = .fault f := by
  simp only [step, h]

/-- Settles O10: each of the four bytes is met by the fetch's load. -/
theorem failedFetchStopsTheStep : Obligations.FailedFetchStopsTheStep := by
  intro s
  refine ⟨fun hpc => step_of_fetchWord_error (fetchWord_of_not_aligned hpc), fun hpc hbytes => ?_⟩
  obtain ⟨k, hk, hbyte⟩ : ∃ k < 4, s.readByte (s.readPc + BitVec.ofNat 64 k) = none := by
    rcases hbytes with h0 | h1 | h2 | h3
    · exact ⟨0, by decide, (congrArg s.readByte (BitVec.add_zero _)).trans h0⟩
    · exact ⟨1, by decide, h1⟩
    · exact ⟨2, by decide, h2⟩
    · exact ⟨3, by decide, h3⟩
  exact step_of_fetchWord_error (fetchWord_of_readByte_eq_none hpc hk hbyte)

/-! ### Steps at words that are not instructions (R34, R81) -/

theorem step_of_decode_illegal {s : State} {w bits : Word} (hfetch : s.fetchWord = .ok w)
    (hdecode : decode s.xlen w = .illegal bits) : step s = .next (s.raiseIllegal bits) := by
  simp only [step, hfetch, hdecode]

theorem step_of_decode_notThisBlock {s : State} {w bits : Word} (hfetch : s.fetchWord = .ok w)
    (hdecode : decode s.xlen w = .notThisBlock bits) : step s = .refused (.notThisBlock bits) := by
  simp only [step, hfetch, hdecode]

/-- Settles O8: the decoding selects the branch of the step. -/
theorem stepAtOtherWordsTrapsOrIsRefused : Obligations.StepAtOtherWordsTrapsOrIsRefused :=
  fun s w hfetch => ⟨fun hdecode => ⟨_, step_of_decode_illegal hfetch hdecode, raiseIllegal_tookIllegal s w⟩,
    step_of_decode_notThisBlock hfetch⟩

/-! ### The two ways an instruction ends (R81, R82, R87) -/

theorem exists_completesWith_of_wellFormed {i : Instr} {s : State} (h : i.wellFormed s.xlen = true) :
    ∃ v, CompletesWith i s (destReg i) v := by
  obtain ⟨v, hexec, hfits⟩ := exec_eq_issue_fits h
  exact ⟨v, completesWith_of_issue hexec h hfits⟩

/-- Settles O12: the value issued fits XLEN where the instruction is well formed, and is not written elsewhere. -/
theorem illegalInstructionIsRaisedInExactlyTheListedCases :
    Obligations.IllegalInstructionIsRaisedInExactlyTheListedCases :=
  fun _ _ => ⟨exists_completesWith_of_wellFormed, raisesIllegal_of_not_wellFormed⟩

/-- What a word that decodes to an instruction is. -/
theorem encode_eq_of_decode_instr {x : Xlen} {w : Word} {i : Instr} (h : decode x w = .instr i) :
    encode i = w ∧ i.wellFormed x = true := by
  rcases Laws.everyWordIsAnInstructionsWordOrNotThisBlock x w with ⟨j, hw, hdecode⟩ | ⟨-, hdecode⟩
  · rw [h] at hdecode
    split at hdecode
    case isTrue hwf => cases hdecode; exact ⟨hw, hwf⟩
    case isFalse => cases hdecode
  · rw [h] at hdecode
    cases hdecode

/-- What a word that decodes to IllegalInstruction is. -/
theorem exists_encode_eq_of_decode_illegal {x : Xlen} {w bits : Word} (h : decode x w = .illegal bits) :
    ∃ i, encode i = w ∧ i.wellFormed x = false := by
  rcases Laws.everyWordIsAnInstructionsWordOrNotThisBlock x w with ⟨j, hw, hdecode⟩ | ⟨-, hdecode⟩
  · rw [h] at hdecode
    split at hdecode
    case isTrue => cases hdecode
    case isFalse hwf => exact ⟨j, hw, Bool.eq_false_iff.mpr hwf⟩
  · rw [h] at hdecode
    cases hdecode

/-- Settles O13: the fetched word is the instruction's, which completed, or an ill-formed one's, which was taken. -/
theorem everyStepCompletesOneInstructionOrTakesIllegal :
    Obligations.EveryStepCompletesOneInstructionOrTakesIllegal := by
  intro s t hstep
  obtain ⟨w, hfetch, ⟨i, hdecode, hexec⟩ | ⟨hdecode, rfl⟩⟩ := step_next_cases hstep
  case inl =>
    obtain ⟨hw, hwf⟩ := encode_eq_of_decode_instr hdecode
    obtain ⟨v, u, hu, hretired⟩ := exists_completesWith_of_wellFormed hwf
    obtain rfl : u = t := Host.Outcome.next.inj (hu.symm.trans hexec)
    exact ⟨w, hfetch, .inl ⟨i, v, hw, hwf, hretired⟩⟩
  case inr =>
    obtain ⟨i, hw, hwf⟩ := exists_encode_eq_of_decode_illegal hdecode
    exact ⟨w, hfetch, .inr ⟨i, hw, hwf, raiseIllegal_tookIllegal s w⟩⟩

/-- Every instruction issues one value, whatever the mode: the unit's ports carry no mode. -/
theorem exec_withMode_eq_issue (i : Instr) (s : State) (k : Mode) :
    exec i { s with mode := k } =
      ({ s with mode := k } : State).issue i (destReg i) (unitResult (portsOf i s)) :=
  exec_eq_issue_unitResult (drivesPorts_portsOf i { s with mode := k })

/-- Completing reads no mode. -/
theorem retire_withMode (s : State) (k : Mode) (rd : Reg) (v : XWord) :
    ({ s with mode := k } : State).retire rd v = { s.retire rd v with mode := k } := rfl

/-- Settles O21: one value is issued whatever the mode, and completing leaves the mode as it was. -/
theorem completingIsTheSameInEveryMode : Obligations.CompletingIsTheSameInEveryMode := by
  refine ⟨fun i s k hwf => ?same, fun i s t hexec hmode => ?change⟩
  case same =>
    have hs := exec_eq_issue_unitResult (drivesPorts_portsOf i s)
    have hwfk : i.wellFormed ({ s with mode := k } : State).xlen = true := hwf
    refine ⟨_, hs.trans (issue_of_wellFormed hwf _ _), ?_⟩
    rw [exec_withMode_eq_issue, issue_of_wellFormed hwfk, retire_withMode]
  case change =>
    rcases exec_cases i s with ⟨-, v, hv⟩ | ⟨hwf, -⟩
    · obtain rfl : s.retire (destReg i) v = t := Host.Outcome.next.inj (hv.symm.trans hexec)
      exact absurd (State.retire_mode ..) hmode
    · exact raisesIllegal_of_not_wellFormed hwf

/-! ### Trap entry (R85) -/

theorem raiseIllegal_eq_enterM {s : State} (h : ¬ IllegalGoesToS s) (w : Word) :
    s.raiseIllegal w = s.enterM illegalInstructionCode (illegalTval s w) :=
  takeException_of_not_delegates (by simpa [illegalGoesToS_iff] using h) _

theorem raiseIllegal_eq_enterS {s : State} (h : IllegalGoesToS s) (w : Word) :
    s.raiseIllegal w = s.enterS illegalInstructionCode (illegalTval s w) :=
  takeException_of_delegates ((illegalGoesToS_iff s).mp h) _

/-- Settles O17: the entered trap value is the word's, which fits both XLENs. -/
theorem trapValueIsTheWordZeroExtended : Obligations.TrapValueIsTheWordZeroExtended := by
  refine fun s w => ⟨fun h => ?_, fun h => ?_⟩
  · rw [raiseIllegal_eq_enterM h, State.enterM_mtval]; exact truncX_illegalTval s w
  · rw [raiseIllegal_eq_enterS h, State.enterS_stval]; exact truncX_illegalTval s w

/-! ### Trap return (R86) -/

theorem returnM_readPc (s : State) : s.returnM.readPc = truncX s.xlen s.mepc := truncX_truncX _ _

theorem returnS_readPc (s : State) : s.returnS.readPc = truncX s.xlen s.sepc := truncX_truncX _ _

/-- Settles O18: the pc is cut to XLEN bits once more where it is read; every other part is a field as it stands. -/
theorem trapReturnRestoresModeEnableAndPc : Obligations.TrapReturnRestoresModeEnableAndPc := fun s =>
  ⟨⟨rfl, rfl, returnM_readPc s, rfl, rfl, rfl, rfl, rfl, rfl, ⟨rfl, rfl, rfl, rfl⟩, ⟨rfl, rfl, rfl, rfl, rfl, rfl⟩,
      fun _ => rfl, fun _ => rfl⟩,
    ⟨rfl, rfl, returnS_readPc s, rfl, rfl, rfl, rfl, rfl, rfl, ⟨rfl, rfl, rfl, rfl⟩, ⟨rfl, rfl, rfl, rfl, rfl, rfl⟩,
      fun _ => rfl, fun _ => rfl⟩⟩

/-- The pc that was saved is the pc that is read after the return. -/
theorem returnM_enterM_readPc (s : State) (code : Nat) (tval : XWord) :
    (s.enterM code tval).returnM.readPc = s.readPc := (returnM_readPc _).trans (truncX_readPc s)

theorem returnS_enterS_readPc (s : State) (code : Nat) (tval : XWord) :
    (s.enterS code tval).returnS.readPc = s.readPc := (returnS_readPc _).trans (truncX_readPc s)

/-- Settles O19: entry saves the mode, the enable and the pc where the return finds them, and neither touches
registers, memory or host parameters. -/
theorem returnUndoesIllegalTrapEntry : Obligations.ReturnUndoesIllegalTrapEntry := by
  refine fun s w => ⟨fun h => ?_, fun h => ?_⟩
  · rw [raiseIllegal_eq_enterM h]
    exact ⟨rfl, rfl, returnM_enterM_readPc .., fun _ => rfl, fun _ => rfl, rfl, rfl, rfl, rfl, rfl, rfl⟩
  · rw [raiseIllegal_eq_enterS h]
    exact ⟨rfl, rfl, returnS_enterS_readPc .., fun _ => rfl, fun _ => rfl, rfl, rfl, rfl, rfl, rfl, rfl⟩

/-! ### Returning to the same word (R86) -/

/-- Entering again after the return writes what was written before. -/
theorem enterM_returnM_enterM (s : State) (code : Nat) (tval : XWord) :
    (s.enterM code tval).returnM.enterM code tval = s.enterM code tval := by
  rw [State.enterM, returnM_enterM_readPc]; rfl

theorem enterS_returnS_enterS (s : State) (code : Nat) (tval : XWord) :
    (s.enterS code tval).returnS.enterS code tval = s.enterS code tval := by
  rw [State.enterS, returnS_enterS_readPc]; rfl

/-- A state with the pc, the memory and the XLEN of a state at an illegal word takes the exception too. -/
theorem step_of_same_fetch {s u : State} {w : Word} (hfetch : s.fetchWord = .ok w)
    (hdecode : decode s.xlen w = .illegal w) (hpc : u.readPc = s.readPc) (hmem : u.mem = s.mem)
    (hxlen : u.xlen = s.xlen) : step u = .next (u.raiseIllegal w) :=
  step_of_decode_illegal ((fetchWord_congr hmem hxlen hpc).trans hfetch) (by rwa [hxlen])

/-- Settles O20: the return leads back to the illegal word in the mode it was met in, and its trap is entered as
before. -/
theorem returningToAFaultingWordTrapsAgain : Obligations.ReturningToAFaultingWordTrapsAgain := by
  intro s t w hfetch hdecode hstep
  obtain rfl : s.raiseIllegal w = t :=
    Host.Outcome.next.inj ((step_of_decode_illegal hfetch hdecode).symm.trans hstep)
  refine ⟨fun h => ?_, fun h => ?_⟩
  · rw [raiseIllegal_eq_enterM h]
    have hback : ¬ IllegalGoesToS (s.enterM illegalInstructionCode (illegalTval s w)).returnM := h
    rw [step_of_same_fetch hfetch hdecode (returnM_enterM_readPc ..) rfl rfl, raiseIllegal_eq_enterM hback]
    exact congrArg _ (enterM_returnM_enterM ..)
  · rw [raiseIllegal_eq_enterS h]
    have hback : IllegalGoesToS (s.enterS illegalInstructionCode (illegalTval s w)).returnS := h
    rw [step_of_same_fetch hfetch hdecode (returnS_enterS_readPc ..) rfl rfl, raiseIllegal_eq_enterS hback]
    exact congrArg _ (enterS_returnS_enterS ..)

end Sys2Proof.Machine
end
